-- ==== Sys2Proof/Word.lean ====
section
/-! DEFINITION. The block's values: 32-bit words, 16-bit halves and bytes (00_scope.md R8, R10).
All of them are unsigned; the block has no signed arithmetic (R10). -/

namespace Sys2Proof

/-- A data register or a command word: 32 bits (R8). -/
abbrev Word := BitVec 32

/-- An `imm16` operand: one half of a 32-bit register (R73). -/
abbrev Half := BitVec 16

/-- A stream byte, a byte operand or an opcode (R10, R72). -/
abbrev Byte := BitVec 8

/-- `zext_32` of R11. -/
abbrev zext32 {n : Nat} (v : BitVec n) : Word := v.setWidth 32

end Sys2Proof
end

