-- ==== Sys2Proof/Config.lean ====
section
/-! DEFINITION. What the spec leaves open.
The block itself has no open parameter: every width, count and constant of 00_scope.md R8 is fixed by the
spec and stands where it is used (the widths in `Word.lean` and `Machine/State.lean`, the CRC constants in
`Machine/Ops.lean`).
One parameter is open and belongs to the host (R9, decision D32): the external compressor. -/

namespace Sys2Proof

/-- R9: `Compress : ByteSeq -> Option ByteSeq`, where `none` is a compressor failure.
A compressor is always an ARGUMENT of the host procedure (`Machine/HostProcedure.lean`) and never part of
State, so a claim that mentions one holds for every compressor unless it says otherwise (log entry 10). -/
abbrev Config.Compress := List Byte → Option (List Byte)

end Sys2Proof
end

