-- ==== Sys2Proof/Syntax.lean ====
section
/-! DEFINITION. The command set of PFB-1, revision 1: one constructor per row of 30_encoding.md R75
(the 17 rows of `spec/opcode_table.json`). The operands carry the widths of their fields (R72 to R74), so
an out-of-range operand cannot be written; `WellFormed.lean` holds the checks on unchecked numbers. -/

namespace Sys2Proof

/-- One command of the block (R75). -/
inductive Instr where
  /-- `NOP` (43_control_and_host.md R170). -/
  | nop
  /-- `CRC.INIT` (40_crc.md R105). -/
  | crcInit
  /-- `CRC.BYTE b` (R106). -/
  | crcByte (b : Byte)
  /-- `CRC.FINAL` (R107). -/
  | crcFinal
  /-- `OUT.BYTE b` (41_framer.md R123). -/
  | outByte (b : Byte)
  /-- `FR.TYPEB b` (R124). -/
  | frTypeb (b : Byte)
  /-- `FR.LENH imm16` (R125). -/
  | frLenh (imm : Half)
  /-- `FR.LENL imm16` (R126). -/
  | frLenl (imm : Half)
  /-- `FR.START` (R127). -/
  | frStart
  /-- `FR.DATA b` (R128). -/
  | frData (b : Byte)
  /-- `FR.END` (R129). -/
  | frEnd
  /-- `SL.WH imm16` (42_scanline.md R154). -/
  | slWh (imm : Half)
  /-- `SL.WL imm16` (R155). -/
  | slWl (imm : Half)
  /-- `SL.HH imm16` (R156). -/
  | slHh (imm : Half)
  /-- `SL.HL imm16` (R157). -/
  | slHl (imm : Half)
  /-- `SL.START` (R158). -/
  | slStart
  /-- `SL.PIX r, g, bl` (R159). -/
  | slPix (r g bl : Byte)
  deriving DecidableEq, Repr

end Sys2Proof
end

