-- ==== Sys2Proof/WellFormed.lean ====
section
/-! DEFINITION. Well-formedness: the four command formats (30_encoding.md R71 to R74), which operand lists
each format admits (R81), and which bits of a word each format reserves.
Every term of `Instr` is well-formed, because its operands carry their widths; the checks below refuse
unchecked numbers (an assembler's operands) and unchecked words. -/

namespace Sys2Proof

/-- The formats of R71 (A, no operand), R72 (B, a byte), R73 (C, a 16-bit immediate) and R74 (D, an RGB triple). -/
inductive Format where
  | a
  | b
  | c
  | d
  deriving DecidableEq, Repr

namespace Format

/-- How many operands a command of the format takes, and below what bound each one lies (R72 to R74, R81). -/
def operandBounds : Format → List Nat
  | .a => []
  | .b => [256]
  | .c => [65536]
  | .d => [256, 256, 256]

/-- R81: an operand list fits a format if it has the format's length and every operand is in range. -/
def admits (f : Format) (operands : List Nat) : Bool :=
  operands.length == f.operandBounds.length &&
    (operands.zip f.operandBounds).all fun (v, bound) => v < bound

/-- The reserved bits of the format: `[23:0]` for A, `[23:8]` for B, `[23:16]` for C, none for D. -/
def reservedMask : Format → Word
  | .a => 0x00FFFFFF
  | .b => 0x00FFFF00
  | .c => 0x00FF0000
  | .d => 0x00000000

/-- R71 to R73: "reserved, must be 0". -/
def reservedClear (f : Format) (w : Word) : Bool := w &&& f.reservedMask == 0

end Format

namespace Instr

/-- The format of each command (the format column of R75). -/
def format : Instr → Format
  | .nop => .a
  | .crcInit => .a
  | .crcByte _ => .b
  | .crcFinal => .a
  | .outByte _ => .b
  | .frTypeb _ => .b
  | .frLenh _ => .c
  | .frLenl _ => .c
  | .frStart => .a
  | .frData _ => .b
  | .frEnd => .a
  | .slWh _ => .c
  | .slWl _ => .c
  | .slHh _ => .c
  | .slHl _ => .c
  | .slStart => .a
  | .slPix _ _ _ => .d

/-- The operands as plain numbers, in the order the assembler writes them (R81). -/
def operands : Instr → List Nat
  | .nop => []
  | .crcInit => []
  | .crcByte b => [b.toNat]
  | .crcFinal => []
  | .outByte b => [b.toNat]
  | .frTypeb b => [b.toNat]
  | .frLenh imm => [imm.toNat]
  | .frLenl imm => [imm.toNat]
  | .frStart => []
  | .frData b => [b.toNat]
  | .frEnd => []
  | .slWh imm => [imm.toNat]
  | .slWl imm => [imm.toNat]
  | .slHh imm => [imm.toNat]
  | .slHl imm => [imm.toNat]
  | .slStart => []
  | .slPix r g bl => [r.toNat, g.toNat, bl.toNat]

/-- A command is well-formed if its operands fit its format; every term is (`Laws/PerInstr.lean`). -/
def wellFormed (i : Instr) : Bool := i.format.admits i.operands

end Instr

end Sys2Proof
end

