-- ==== Sys2Proof/Decode.lean ====
section
/-! DEFINITION. Encoding and decoding of command words (30_encoding.md R70 to R80).
The decoder is total on all 2^32 words and refuses by name; both refusals raise ILLEGAL_CMD
(`Machine/Port.lean`). The encoder is written from the same field tables. -/

namespace Sys2Proof

/-- Why a word is no command. Both reasons raise `Fault(ILLEGAL_CMD)` (R76). -/
inductive DecodeError where
  /-- R77: the opcode is not one of R75. -/
  | unassignedOpcode (op : Byte)
  /-- R78: the opcode is assigned, but the format's reserved field is not zero. -/
  | reservedBits (op : Byte)
  deriving DecidableEq, Repr

/-! ## Fields -/

/-- R70: `op = w[31:24]` in every format. -/
def opcodeOf (w : Word) : Byte := w.extractLsb' 24 8

/-- R72: `b = w[7:0]`. R74: `bl = w[7:0]`. -/
def fieldB (w : Word) : Byte := w.extractLsb' 0 8

/-- R73: `imm16 = w[15:0]`. -/
def fieldImm16 (w : Word) : Half := w.extractLsb' 0 16

/-- R74: `r = w[23:16]`. -/
def fieldR (w : Word) : Byte := w.extractLsb' 16 8

/-- R74: `g = w[15:8]`. -/
def fieldG (w : Word) : Byte := w.extractLsb' 8 8

/-! ## Formats -/

/-- R78: the word's command, unless a reserved bit of its format is set. -/
def ofFormat (f : Format) (w : Word) (i : Instr) : Except DecodeError Instr :=
  if f.reservedClear w then .ok i else .error (.reservedBits (opcodeOf w))

/-- R76: total decoding of a command word. -/
def decode (w : Word) : Except DecodeError Instr :=
  match opcodeOf w with
  | 0x00#8 => ofFormat .a w .nop
  | 0x01#8 => ofFormat .a w .crcInit
  | 0x02#8 => ofFormat .b w (.crcByte (fieldB w))
  | 0x03#8 => ofFormat .a w .crcFinal
  | 0x08#8 => ofFormat .b w (.outByte (fieldB w))
  | 0x10#8 => ofFormat .b w (.frTypeb (fieldB w))
  | 0x11#8 => ofFormat .c w (.frLenh (fieldImm16 w))
  | 0x12#8 => ofFormat .c w (.frLenl (fieldImm16 w))
  | 0x13#8 => ofFormat .a w .frStart
  | 0x14#8 => ofFormat .b w (.frData (fieldB w))
  | 0x15#8 => ofFormat .a w .frEnd
  | 0x20#8 => ofFormat .c w (.slWh (fieldImm16 w))
  | 0x21#8 => ofFormat .c w (.slWl (fieldImm16 w))
  | 0x22#8 => ofFormat .c w (.slHh (fieldImm16 w))
  | 0x23#8 => ofFormat .c w (.slHl (fieldImm16 w))
  | 0x24#8 => ofFormat .a w .slStart
  | 0x25#8 => ofFormat .d w (.slPix (fieldR w) (fieldG w) (fieldB w))
  | op => .error (.unassignedOpcode op)

/-- The decoder asked by a row of `spec/opcode_table.json`: `nbits` bits, bit 0 the least significant.
Every command is one 32-bit word (R80), so a number that needs more bits is no command (log entry 15). -/
def decodeTableWord (nbits w : Nat) : Option Instr :=
  if w % 2 ^ nbits < 2 ^ 32 then (decode (BitVec.ofNat 32 (w % 2 ^ nbits))).toOption else none

/-! ## The encoder -/

/-- R81: "The word is `op << 24 | operand field`", for an operand field that lies in bits `[23:0]`. -/
def commandWord (op : Byte) (field : Word) : Word := (zext32 op <<< 24) ||| field

/-- R74: the operand field of format D. -/
def rgbField (r g bl : Byte) : Word := (zext32 r <<< 16) ||| (zext32 g <<< 8) ||| zext32 bl

/-- The word of a command (R75 and R71 to R74), reserved bits zero (R81). -/
def encode : Instr → Word
  | .nop => commandWord 0x00 0
  | .crcInit => commandWord 0x01 0
  | .crcByte b => commandWord 0x02 (zext32 b)
  | .crcFinal => commandWord 0x03 0
  | .outByte b => commandWord 0x08 (zext32 b)
  | .frTypeb b => commandWord 0x10 (zext32 b)
  | .frLenh imm => commandWord 0x11 (zext32 imm)
  | .frLenl imm => commandWord 0x12 (zext32 imm)
  | .frStart => commandWord 0x13 0
  | .frData b => commandWord 0x14 (zext32 b)
  | .frEnd => commandWord 0x15 0
  | .slWh imm => commandWord 0x20 (zext32 imm)
  | .slWl imm => commandWord 0x21 (zext32 imm)
  | .slHh imm => commandWord 0x22 (zext32 imm)
  | .slHl imm => commandWord 0x23 (zext32 imm)
  | .slStart => commandWord 0x24 0
  | .slPix r g bl => commandWord 0x25 (rgbField r g bl)

/-! ## The opcode map as data -/

/-- One row of R75. -/
structure OpcodeRow where
  mnemonic : String
  format : Format
  op : Byte
  deriving DecidableEq, Repr

/-- R75: the mask of a row (format A 0xFFFFFFFF, B 0xFFFFFF00, C 0xFFFF0000, D 0xFF000000). -/
def OpcodeRow.mask (row : OpcodeRow) : Word :=
  match row.format with
  | .a => 0xFFFFFFFF
  | .b => 0xFFFFFF00
  | .c => 0xFFFF0000
  | .d => 0xFF000000

/-- R75: the match value of a row, `op << 24`. -/
def OpcodeRow.matchWord (row : OpcodeRow) : Word := zext32 row.op <<< 24

/-- R75: "a word `w` encodes the command when `w AND mask = match`". -/
def OpcodeRow.matches (row : OpcodeRow) (w : Word) : Bool := w &&& row.mask == row.matchWord

/-- R75, one row per command; the mnemonics are those of `spec/opcode_table.json`. -/
def opcodeMap : List OpcodeRow :=
  [⟨"NOP", .a, 0x00⟩, ⟨"CRC.INIT", .a, 0x01⟩, ⟨"CRC.BYTE", .b, 0x02⟩, ⟨"CRC.FINAL", .a, 0x03⟩] ++
  [⟨"OUT.BYTE", .b, 0x08⟩, ⟨"FR.TYPEB", .b, 0x10⟩, ⟨"FR.LENH", .c, 0x11⟩, ⟨"FR.LENL", .c, 0x12⟩,
    ⟨"FR.START", .a, 0x13⟩, ⟨"FR.DATA", .b, 0x14⟩, ⟨"FR.END", .a, 0x15⟩] ++
  [⟨"SL.WH", .c, 0x20⟩, ⟨"SL.WL", .c, 0x21⟩, ⟨"SL.HH", .c, 0x22⟩, ⟨"SL.HL", .c, 0x23⟩,
    ⟨"SL.START", .a, 0x24⟩, ⟨"SL.PIX", .d, 0x25⟩]

/-- The row of R75 a command belongs to. -/
def rowOf : Instr → OpcodeRow
  | .nop => ⟨"NOP", .a, 0x00⟩
  | .crcInit => ⟨"CRC.INIT", .a, 0x01⟩
  | .crcByte _ => ⟨"CRC.BYTE", .b, 0x02⟩
  | .crcFinal => ⟨"CRC.FINAL", .a, 0x03⟩
  | .outByte _ => ⟨"OUT.BYTE", .b, 0x08⟩
  | .frTypeb _ => ⟨"FR.TYPEB", .b, 0x10⟩
  | .frLenh _ => ⟨"FR.LENH", .c, 0x11⟩
  | .frLenl _ => ⟨"FR.LENL", .c, 0x12⟩
  | .frStart => ⟨"FR.START", .a, 0x13⟩
  | .frData _ => ⟨"FR.DATA", .b, 0x14⟩
  | .frEnd => ⟨"FR.END", .a, 0x15⟩
  | .slWh _ => ⟨"SL.WH", .c, 0x20⟩
  | .slWl _ => ⟨"SL.WL", .c, 0x21⟩
  | .slHh _ => ⟨"SL.HH", .c, 0x22⟩
  | .slHl _ => ⟨"SL.HL", .c, 0x23⟩
  | .slStart => ⟨"SL.START", .a, 0x24⟩
  | .slPix _ _ _ => ⟨"SL.PIX", .d, 0x25⟩

end Sys2Proof
end

