-- ==== Sys2Proof/Machine/State.lean ====
section
/-! DEFINITION. The state of the block (10_state.md R20 to R42), the host's side of its ports, and reset.
The registers are those of R22 to R36 and the two streams of R38; R41 says there is nothing else.
The last two fields are the MODEL's own: what the host is about to do at the CMD, RD and RST ports, and
what RD has answered (log entries 1 and 3).
There is no memory and no program counter (R21, R50). -/

namespace Sys2Proof.Machine

/-- R28: the framer phase `FPH`. -/
inductive FramerPhase where
  /-- 0: no frame is open. -/
  | idle
  /-- 1: between `FR.START` and `FR.END`. -/
  | payload
  deriving DecidableEq, Repr

/-- R33: the prepender phase `SPH`. -/
inductive PrependerPhase where
  /-- 0: no job is active. -/
  | idle
  /-- 1: between `SL.START` and the last pixel. -/
  | active
  deriving DecidableEq, Repr

/-- R201: the cause of a recorded fault. (Code 0x00, NONE, is "no fault since reset" and no cause.) -/
inductive Cause where
  | illegalCmd
  | sequence
  | typeLength
  | typeChar
  | lengthMismatch
  | badDimension
  deriving DecidableEq, Repr

/-- What the host can do to the block at one of its input ports (20_memory.md R51, R68). Taking OUT and RAW
bytes is no action on the block: nothing removes a byte of a stream (R38). -/
inductive HostAction where
  /-- R52: write one 32-bit command word on CMD. -/
  | command (word : Word)
  /-- R53: read the register of a 4-bit index on RD. -/
  | read (index : BitVec 4)
  /-- R56: pulse RST. -/
  | reset
  deriving DecidableEq, Repr

/-- The machine stops with a fault. PFB-1 has no such stop: its faults are recorded in ERR, CAUSE and FCMD
and the block goes on (60_exceptions.md R204, R206), and "A write is never refused and never stalls" (R52).
So there is no reason to name, and no step of the model can end this way (log entry 18). Safe. -/
inductive Fault
  deriving DecidableEq, Repr

/-- No meaning for an instruction. -/
inductive Refusal where
  /-- Raised by an arm of `exec` whose instruction has no meaning yet. Safe. No arm raises it: all 17
  commands are modelled. -/
  | notModelled (mnemonic : String)
  deriving DecidableEq, Repr

/-- The state of the block (R20) and of the host's side of its ports. -/
@[ext]
structure State where
  /-- `CRC` (R22): the running, un-complemented CRC-32 register. -/
  crc : Word
  /-- `RES` (R23): the result register. -/
  res : Word
  /-- `TYPE` (R24): the chunk type, first character in bits 31:24. -/
  type : Word
  /-- `TCNT` (R25): type bytes loaded since the last `FR.START` or reset. -/
  tcnt : BitVec 3
  /-- `LEN` (R26): the declared payload length of the next chunk. -/
  len : Word
  /-- `REM` (R27): payload bytes still owed to the open frame. -/
  rem : Word
  /-- `FPH` (R28). -/
  fph : FramerPhase
  /-- `W` (R29): the image width. -/
  w : Word
  /-- `H` (R30): the image height. -/
  h : Word
  /-- `X` (R31): the column of the next pixel. -/
  x : Word
  /-- `Y` (R32): the row of the next pixel. -/
  y : Word
  /-- `SPH` (R33). -/
  sph : PrependerPhase
  /-- `ERR` (R34): the sticky fault flag. -/
  err : Bool
  /-- `CAUSE` (R35): the cause code of the first fault since reset. -/
  cause : Byte
  /-- `FCMD` (R36): the command word of the first fault since reset. -/
  fcmd : Word
  /-- `OUT` (R38): the framed PNG bytes of this run, oldest first. -/
  out : List Byte
  /-- `RAW` (R38): the raw scanline bytes of this run, oldest first. -/
  raw : List Byte
  /-- The model's own: what the host does next at the ports, in order (log entry 1). -/
  pending : List HostAction
  /-- The model's own: the 32-bit values RD has answered, oldest first (log entry 3). -/
  rdData : List Word
  deriving DecidableEq, Repr

/-- The machine right after reset: R42 for the block; no host action is pending and RD has answered nothing. -/
def State.reset : State where
  crc := 0xFFFFFFFF
  res := 0x00000000
  type := 0x00000000
  tcnt := 0
  len := 0x00000000
  rem := 0x00000000
  fph := .idle
  w := 0x00000000
  h := 0x00000000
  x := 0x00000000
  y := 0x00000000
  sph := .idle
  err := false
  cause := 0x00
  fcmd := 0x00000000
  out := []
  raw := []
  pending := []
  rdData := []

end Sys2Proof.Machine
end

