-- ==== Sys2Proof/Machine/Flags.lean ====
section
/-! DEFINITION. The block has no condition codes (10_state.md R39). Its status bits are the phases and the
fault flag, seen through the STATUS view (R37); this file says how each of them reads as bits, and
gives the cause codes (60_exceptions.md R201). -/

namespace Sys2Proof.Machine

/-- R28: `IDLE` is 0, `PAYLOAD` is 1. -/
def FramerPhase.bit : FramerPhase → BitVec 1
  | .idle => 0
  | .payload => 1

/-- R33: `IDLE` is 0, `ACTIVE` is 1. -/
def PrependerPhase.bit : PrependerPhase → BitVec 1
  | .idle => 0
  | .active => 1

/-- The code of each cause in `CAUSE` (R201). -/
def Cause.code : Cause → Byte
  | .illegalCmd => 0x01
  | .sequence => 0x02
  | .typeLength => 0x03
  | .typeChar => 0x04
  | .lengthMismatch => 0x05
  | .badDimension => 0x06

/-- R37: `STATUS`, assembled on each read. Bit 0 FBUSY, bit 1 SBUSY, bit 2 ERR, bits 10:8 TCNT,
bits 23:16 CAUSE, every other bit 0. -/
def statusView (s : State) : Word :=
  zext32 s.fph.bit ||| (zext32 s.sph.bit <<< 1) ||| (zext32 (BitVec.ofBool s.err) <<< 2) |||
    (zext32 s.tcnt <<< 8) ||| (zext32 s.cause <<< 16)

end Sys2Proof.Machine
end

