-- ==== Sys2Proof/Machine/Operands.lean ====
section
/-! DEFINITION. How an operand enters a register, and how a register leaves as bytes: the half-word loads
(30_encoding.md R73), the type shift (41_framer.md R124) and the big-endian split (00_scope.md R13). -/

namespace Sys2Proof.Machine

/-- R125, R154, R156: `v <- (zext_32(imm16) << 16) OR (v AND 0x0000FFFF)`. -/
def loadUpper (v : Word) (imm : Half) : Word := (zext32 imm <<< 16) ||| (v &&& 0x0000FFFF)

/-- R126, R155, R157: `v <- (v AND 0xFFFF0000) OR zext_32(imm16)`. -/
def loadLower (v : Word) (imm : Half) : Word := (v &&& 0xFFFF0000) ||| zext32 imm

/-- R124: `TYPE <- (TYPE << 8) OR zext_32(b)`. -/
def shiftInByte (v : Word) (b : Byte) : Word := (v <<< 8) ||| zext32 b

/-- R13, R120: `BE32(v) = [v[31:24], v[23:16], v[15:8], v[7:0]]`. -/
def be32 (v : Word) : List Byte :=
  [v.extractLsb' 24 8, v.extractLsb' 16 8, v.extractLsb' 8 8, v.extractLsb' 0 8]

/-- `v[31:16]`, the operand of an upper-half load of `v` (R73). -/
def upperHalf (v : Word) : Half := v.extractLsb' 16 16

/-- `v[15:0]`, the operand of a lower-half load of `v` (R73). -/
def lowerHalf (v : Word) : Half := v.extractLsb' 0 16

/-- The value a big-endian byte list spells (R131 "interpreted as big-endian unsigned"). -/
def ofBigEndian (bs : List Byte) : Nat := bs.foldl (fun n b => n * 256 + b.toNat) 0

end Sys2Proof.Machine
end

