-- ==== Sys2Proof/Machine/Ops.lean ====
section
/-! DEFINITION. The named operations every meaning is written over: register writes (00_scope.md R12), stream
appends (R13), the CRC-32 byte update (40_crc.md R101), the checks a command makes before it writes anything
(R14), FAULT ENTRY (60_exceptions.md R204), and beside it the only way out of the faulted state, reset (R208,
70_reset_and_hazards.md R250). -/

namespace Sys2Proof.Machine

/-! ## Register writes (R12) -/

def State.setCrc (s : State) (v : Word) : State := { s with crc := v }
def State.setRes (s : State) (v : Word) : State := { s with res := v }
def State.setType (s : State) (v : Word) : State := { s with type := v }
def State.setTcnt (s : State) (v : BitVec 3) : State := { s with tcnt := v }
def State.setLen (s : State) (v : Word) : State := { s with len := v }
def State.setRem (s : State) (v : Word) : State := { s with rem := v }
def State.setFph (s : State) (p : FramerPhase) : State := { s with fph := p }
def State.setW (s : State) (v : Word) : State := { s with w := v }
def State.setH (s : State) (v : Word) : State := { s with h := v }
def State.setX (s : State) (v : Word) : State := { s with x := v }
def State.setY (s : State) (v : Word) : State := { s with y := v }
def State.setSph (s : State) (p : PrependerPhase) : State := { s with sph := p }

/-- The host's actions still to come (the model's own field). -/
def State.setPending (s : State) (actions : List HostAction) : State := { s with pending := actions }

/-! ## Streams (R13, R38): bytes are only appended -/

/-- `Emit(OUT, b)` for each byte in order. -/
def State.emitOut (s : State) (bs : List Byte) : State := { s with out := s.out ++ bs }

/-- `Emit(RAW, b)` for each byte in order. -/
def State.emitRaw (s : State) (bs : List Byte) : State := { s with raw := s.raw ++ bs }

/-- RD's answer (R53), kept in the model's own field. -/
def State.answerRead (s : State) (v : Word) : State := { s with rdData := s.rdData ++ [v] }

/-! ## CRC-32 -/

/-- R100: the polynomial constant, reflected form. -/
def crcPolynomial : Word := 0xEDB88320

/-- R100: the initial register value, all ones. -/
def crcInitial : Word := 0xFFFFFFFF

/-- R100: the final bitwise complement, as the XOR of R102. -/
def crcComplement (c : Word) : Word := c ^^^ 0xFFFFFFFF

/-- One round of R101: shift right by 1, and XOR the polynomial in if the bit shifted out was 1. -/
def crcRound (c : Word) : Word := if c.getLsbD 0 then (c >>> 1) ^^^ crcPolynomial else c >>> 1

/-- `n` rounds of R101. -/
def crcRounds : Nat → Word → Word
  | 0, c => c
  | n + 1, c => crcRounds n (crcRound c)

/-- R101: the byte update `crc_upd`. -/
def crcUpd (c : Word) (b : Byte) : Word := crcRounds 8 (c ^^^ zext32 b)

/-- The running register after the bytes of `bs`, first byte first (the loop of R102). -/
def crcFold (c : Word) (bs : List Byte) : Word := bs.foldl crcUpd c

/-! ## Taking a fault, and leaving the faulted state -/

/-- R204, fault entry for cause `c` raised by command word `word`: `ERR <- 1; CAUSE <- c; FCMD <- word`, and
nothing else. There is no vector, no saved program counter, no mode change and no stack. -/
def faultEntry (c : Cause) (word : Word) (s : State) : State :=
  { s with err := true, cause := c.code, fcmd := word }

/-- R208, R250, R251: reset is the only way to leave the faulted state. Every piece of block state takes its
reset value and both streams start empty; what the host does next, and what RD has answered so far, are the
host's and stay (log entry 4). -/
def resetBlock (s : State) : State :=
  { State.reset with pending := s.pending, rdData := s.rdData }

/-! ## Checks first, writes after (R14, R203) -/

/-- The cause of the first check, in priority order, that fails. -/
def firstFailing : List (Bool × Cause) → Option Cause
  | [] => none
  | (fails, c) :: rest => if fails then some c else firstFailing rest

/-- A command's body (R14): its checks in priority order (each pair says when it fails and with what cause),
then its writes. If a check fails, the command writes and emits nothing and takes the fault of the first one
that does (R203, R205); FCMD gets the command's word. -/
def checked (checks : List (Bool × Cause)) (word : Word) (writes : State → State) (s : State) :
    Host.Outcome State Fault Refusal :=
  match firstFailing checks with
  | some c => .next (faultEntry c word s)
  | none => .next (writes s)

/-- `SEQUENCE` while a frame is open (R105 to R107, R123, R127). -/
def frameOpen (s : State) : Bool × Cause := (s.fph == .payload, .sequence)

/-- `SEQUENCE` while no frame is open (R128, R129). -/
def noFrame (s : State) : Bool × Cause := (s.fph == .idle, .sequence)

/-- `SEQUENCE` while a job is active (R154 to R158). -/
def jobActive (s : State) : Bool × Cause := (s.sph == .active, .sequence)

/-- `SEQUENCE` while no job is active (R159). -/
def noJob (s : State) : Bool × Cause := (s.sph == .idle, .sequence)

end Sys2Proof.Machine
end

