-- ==== Sys2Proof/Machine/Control.lean ====
section
/-! DEFINITION. The control command (43_control_and_host.md section 1). -/

namespace Sys2Proof.Machine

/-- R170: `NOP`, no effect, in every phase of both units. -/
def execNop (s : State) : Host.Outcome State Fault Refusal :=
  checked [] (encode .nop) id s

end Sys2Proof.Machine
end

