-- ==== Sys2Proof/Machine/Crc.lean ====
section
/-! DEFINITION. The CRC-32 generator's commands (40_crc.md section 2). -/

namespace Sys2Proof.Machine

/-- R105: `CRC.INIT`. -/
def execCrcInit (s : State) : Host.Outcome State Fault Refusal :=
  checked [frameOpen s] (encode .crcInit) (fun s => s.setCrc crcInitial) s

/-- R106: `CRC.BYTE b`. -/
def execCrcByte (b : Byte) (s : State) : Host.Outcome State Fault Refusal :=
  checked [frameOpen s] (encode (.crcByte b)) (fun s => s.setCrc (crcUpd s.crc b)) s

/-- R107: `CRC.FINAL`; CRC itself is not changed. -/
def execCrcFinal (s : State) : Host.Outcome State Fault Refusal :=
  checked [frameOpen s] (encode .crcFinal) (fun s => s.setRes (crcComplement s.crc)) s

end Sys2Proof.Machine
end

