-- ==== Sys2Proof/Machine/Framer.lean ====
section
/-! DEFINITION. The chunk framer's commands (41_framer.md section 2). -/

namespace Sys2Proof.Machine

/-- R123: `OUT.BYTE b`. -/
def execOutByte (b : Byte) (s : State) : Host.Outcome State Fault Refusal :=
  checked [frameOpen s] (encode (.outByte b)) (fun s => s.emitOut [b]) s

/-- R124: `FR.TYPEB b`, in either framer phase; TYPE_LENGTH is checked first. -/
def execFrTypeb (b : Byte) (s : State) : Host.Outcome State Fault Refusal :=
  checked [(s.tcnt == 4, .typeLength), (decide (b.toNat > 0x7F), .typeChar)] (encode (.frTypeb b))
    (fun s => (s.setType (shiftInByte s.type b)).setTcnt (s.tcnt + 1)) s

/-- R125: `FR.LENH imm16`, in either framer phase. -/
def execFrLenh (imm : Half) (s : State) : Host.Outcome State Fault Refusal :=
  checked [] (encode (.frLenh imm)) (fun s => s.setLen (loadUpper s.len imm)) s

/-- R126: `FR.LENL imm16`, in either framer phase. -/
def execFrLenl (imm : Half) (s : State) : Host.Outcome State Fault Refusal :=
  checked [] (encode (.frLenl imm)) (fun s => s.setLen (loadLower s.len imm)) s

/-- The writes of R127: the length field, then the type field, on OUT; the CRC seeded with the type bytes and
not with the length; the frame opened with LEN bytes owed and the type consumed. -/
def openFrame (s : State) : State :=
  (((((s.emitOut (be32 s.len)).emitOut (be32 s.type)).setCrc (crcFold crcInitial (be32 s.type))).setRem
    s.len).setTcnt 0).setFph .payload

/-- R127: `FR.START`. -/
def execFrStart (s : State) : Host.Outcome State Fault Refusal :=
  checked [frameOpen s, (s.tcnt != 4, .typeLength)] (encode .frStart) openFrame s

/-- R128: `FR.DATA b`. -/
def execFrData (b : Byte) (s : State) : Host.Outcome State Fault Refusal :=
  checked [noFrame s, (s.rem == 0, .lengthMismatch)] (encode (.frData b))
    (fun s => ((s.emitOut [b]).setCrc (crcUpd s.crc b)).setRem (s.rem - 1)) s

/-- The writes of R129: the complemented CRC on OUT and in RES; CRC keeps the un-complemented value. -/
def closeFrame (s : State) : State :=
  ((s.emitOut (be32 (crcComplement s.crc))).setRes (crcComplement s.crc)).setFph .idle

/-- R129: `FR.END`. -/
def execFrEnd (s : State) : Host.Outcome State Fault Refusal :=
  checked [noFrame s, (s.rem != 0, .lengthMismatch)] (encode .frEnd) closeFrame s

end Sys2Proof.Machine
end

