-- ==== Sys2Proof/Machine/Scanline.lean ====
section
/-! DEFINITION. The scanline filter-byte prepender's commands (42_scanline.md section 2). -/

namespace Sys2Proof.Machine

/-- R154: `SL.WH imm16`. -/
def execSlWh (imm : Half) (s : State) : Host.Outcome State Fault Refusal :=
  checked [jobActive s] (encode (.slWh imm)) (fun s => s.setW (loadUpper s.w imm)) s

/-- R155: `SL.WL imm16`. -/
def execSlWl (imm : Half) (s : State) : Host.Outcome State Fault Refusal :=
  checked [jobActive s] (encode (.slWl imm)) (fun s => s.setW (loadLower s.w imm)) s

/-- R156: `SL.HH imm16`. -/
def execSlHh (imm : Half) (s : State) : Host.Outcome State Fault Refusal :=
  checked [jobActive s] (encode (.slHh imm)) (fun s => s.setH (loadUpper s.h imm)) s

/-- R157: `SL.HL imm16`. -/
def execSlHl (imm : Half) (s : State) : Host.Outcome State Fault Refusal :=
  checked [jobActive s] (encode (.slHl imm)) (fun s => s.setH (loadLower s.h imm)) s

/-- The writes of R158; RAW is not written here. -/
def startJob (s : State) : State := ((s.setX 0).setY 0).setSph .active

/-- R158: `SL.START`. -/
def execSlStart (s : State) : Host.Outcome State Fault Refusal :=
  checked [jobActive s, (s.w == 0 || s.h == 0, .badDimension)] (encode .slStart) startJob s

/-- The bytes of one pixel in R159: the filter byte 0 if the pixel opens a row, then r, g, bl verbatim. -/
def pixelBytes (s : State) (r g bl : Byte) : List Byte :=
  (if s.x == 0 then [0x00] else []) ++ [r, g, bl]

/-- The end of a row in R159: back to column 0, next row, and the job ends if that row is H. -/
def endRow (s : State) : State :=
  if s.y + 1 == s.h then ((s.setX 0).setY (s.y + 1)).setSph .idle else (s.setX 0).setY (s.y + 1)

/-- The position update of R159. -/
def advancePosition (s : State) : State :=
  if s.x + 1 == s.w then endRow s else s.setX (s.x + 1)

/-- R159: `SL.PIX r, g, bl`. -/
def execSlPix (r g bl : Byte) (s : State) : Host.Outcome State Fault Refusal :=
  checked [noJob s] (encode (.slPix r g bl))
    (fun s => advancePosition (s.emitRaw (pixelBytes s r g bl))) s

end Sys2Proof.Machine
end

