-- ==== Sys2Proof/Machine/Dispatch.lean ====
section
/-! DEFINITION. `Execute(w)` of 00_scope.md R15: one arm per command, each a direct call of its meaning.
Whether a command is executed at all (ERR, illegal words) is decided before, in `Machine/Port.lean` (R76). -/

namespace Sys2Proof.Machine

def exec (i : Instr) (s : State) : Host.Outcome State Fault Refusal :=
  match i with
  | .nop => Sys2Proof.Machine.execNop s
  | .crcInit => Sys2Proof.Machine.execCrcInit s
  | .crcByte b => Sys2Proof.Machine.execCrcByte b s
  | .crcFinal => Sys2Proof.Machine.execCrcFinal s
  | .outByte b => Sys2Proof.Machine.execOutByte b s
  | .frTypeb b => Sys2Proof.Machine.execFrTypeb b s
  | .frLenh imm => Sys2Proof.Machine.execFrLenh imm s
  | .frLenl imm => Sys2Proof.Machine.execFrLenl imm s
  | .frStart => Sys2Proof.Machine.execFrStart s
  | .frData b => Sys2Proof.Machine.execFrData b s
  | .frEnd => Sys2Proof.Machine.execFrEnd s
  | .slWh imm => Sys2Proof.Machine.execSlWh imm s
  | .slWl imm => Sys2Proof.Machine.execSlWl imm s
  | .slHh imm => Sys2Proof.Machine.execSlHh imm s
  | .slHl imm => Sys2Proof.Machine.execSlHl imm s
  | .slStart => Sys2Proof.Machine.execSlStart s
  | .slPix r g bl => Sys2Proof.Machine.execSlPix r g bl s

end Sys2Proof.Machine
end

