-- ==== Sys2Proof/Machine/Port.lean ====
section
/-! DEFINITION. The block's ports (20_memory.md R51 to R56): what one host action does, and the order in which
the host's actions take effect (R63). -/

namespace Sys2Proof.Machine

/-- R43, R53: the value RD gives for a 4-bit index; the reserved indices 0xB to 0xF read 0. -/
def readRegister (index : BitVec 4) (s : State) : Word :=
  match index with
  | 0x0#4 => statusView s
  | 0x1#4 => s.res
  | 0x2#4 => s.crc
  | 0x3#4 => s.type
  | 0x4#4 => s.len
  | 0x5#4 => s.rem
  | 0x6#4 => s.w
  | 0x7#4 => s.h
  | 0x8#4 => s.x
  | 0x9#4 => s.y
  | 0xA#4 => s.fcmd
  | _ => 0x00000000

/-- R76, `Step(s, w)`: a faulted block ignores every word (R206); an illegal word raises ILLEGAL_CMD; any
other word runs its command. -/
def acceptCommand (word : Word) (s : State) : Host.Outcome State Fault Refusal :=
  if s.err then .next s
  else
    match decode word with
    | .ok i => exec i s
    | .error _ => .next (faultEntry .illegalCmd word s)

/-- One action of the host (R51, R68): a command word on CMD (R52), a register read on RD, which changes
nothing in the block (R53), or a pulse on RST (R56). -/
def perform (action : HostAction) (s : State) : Host.Outcome State Fault Refusal :=
  match action with
  | .command word => acceptCommand word s
  | .read index => .next (s.answerRead (readRegister index s))
  | .reset => .next (resetBlock s)

/-- The host's next action, taken from the front of the pending list; actions take effect one at a time in
order (R63). With nothing pending the block holds its state (R218, log entry 2). -/
def performNext (s : State) : Host.Outcome State Fault Refusal :=
  match s.pending with
  | [] => .next s
  | action :: rest => perform action (s.setPending rest)

/-- The host writes this word on CMD next (R52). -/
def pushCommand (word : Word) (s : State) : State := s.setPending (.command word :: s.pending)

/-- The host performs these actions, in order (a part of a run, 70_reset_and_hazards.md R261). -/
def performAll : List HostAction → State → Host.Outcome State Fault Refusal
  | [], s => .next s
  | action :: rest, s =>
    match perform action s with
    | .next t => performAll rest t
    | .fault r => .fault r
    | .refused r => .refused r

/-- The host writes the words of these commands on CMD, in order. -/
def issue (commands : List Instr) (s : State) : Host.Outcome State Fault Refusal :=
  performAll (commands.map fun i => .command (encode i)) s

end Sys2Proof.Machine
end

