-- ==== Sys2Proof/Machine/Step.lean ====
section
/-! DEFINITION. One step of the machine: the host's next action (30_encoding.md R76, 20_memory.md R52). -/

namespace Sys2Proof.Machine

/-- One step: the next pending host action takes effect, whole (R60). -/
def step (s : State) : Host.Outcome State Fault Refusal := performNext s

/-- `s` with the table's word as the host's very next CMD write: the block fetches nothing (R21), so this is
how a program's next command comes to run (log entry 1). -/
def State.withFetchWord (s : State) (nbits w : Nat) : State :=
  pushCommand (BitVec.ofNat 32 (w % 2 ^ nbits)) s

end Sys2Proof.Machine
end

