-- ==== Sys2Proof/Machine/Reference.lean ====
section
/-! DEFINITION. The source's pure functions, which the block's command sequences compute (90_conflicts.md C2):
`crc32` (40_crc.md R102), `makeChunk` (41_framer.md R120), `rawScanlines` (42_scanline.md R151) and the fixed
parts of a PNG file (43_control_and_host.md R181 to R184). They read no state. -/

namespace Sys2Proof.Machine

/-- R102: the checksum of a byte sequence. -/
def crc32 (bs : List Byte) : Word := crcComplement (crcFold crcInitial bs)

/-- R109: the table entry `T[n] = crc_upd(0x00000000, n)`. -/
def crcTable (n : Byte) : Word := crcUpd 0 n

/-- One round of the mirrored algorithm: shift left by 1, and XOR 0x04C11DB7 in if the bit shifted out was 1.
R100 names 0x04C11DB7 as the bit-reversed polynomial (general knowledge, 93_implementation_defined.md G1);
no command of the block uses it. -/
def crcMirrorRound (c : Word) : Word := if c.msb then (c <<< 1) ^^^ 0x04C11DB7 else c <<< 1

/-- `n` rounds of the mirrored algorithm. -/
def crcMirrorRounds : Nat → Word → Word
  | 0, c => c
  | n + 1, c => crcMirrorRounds n (crcMirrorRound c)

/-- The mirrored byte update: the bit-reversed byte enters at the top (91_not_in_source.md, 40_crc.md entry:
"without reflecting input and output"). -/
def crcMirrorUpd (c : Word) (b : Byte) : Word := crcMirrorRounds 8 (c ^^^ (zext32 b.reverse <<< 24))

/-- A chunk type: four bytes, the first character first (R16, R120). -/
structure ChunkTag where
  c0 : Byte
  c1 : Byte
  c2 : Byte
  c3 : Byte
  deriving DecidableEq, Repr

/-- The type bytes in the order they are emitted. -/
def ChunkTag.bytes (t : ChunkTag) : List Byte := [t.c0, t.c1, t.c2, t.c3]

/-- R24: `TYPE = c0<<24 | c1<<16 | c2<<8 | c3`. -/
def ChunkTag.word (t : ChunkTag) : Word :=
  (zext32 t.c0 <<< 24) ||| (zext32 t.c1 <<< 16) ||| (zext32 t.c2 <<< 8) ||| zext32 t.c3

/-- R122, R124: every byte lies in 0x00 to 0x7F. -/
def ChunkTag.ascii (t : ChunkTag) : Bool := t.bytes.all fun b => b.toNat ≤ 0x7F

/-- R120: `makeChunk(t, p) = BE32(len(p)) ++ t ++ p ++ BE32(crc32(t ++ p))`. -/
def makeChunk (t : ChunkTag) (payload : List Byte) : List Byte :=
  be32 (BitVec.ofNat 32 payload.length) ++ t.bytes ++ payload ++ be32 (crc32 (t.bytes ++ payload))

/-- A pixel: three 8-bit channels (R74, R151), so the violations of R161 cannot be written. -/
structure Pixel where
  r : Byte
  g : Byte
  bl : Byte
  deriving DecidableEq, Repr

/-- The channel bytes in stream order (R151). -/
def Pixel.bytes (p : Pixel) : List Byte := [p.r, p.g, p.bl]

/-- R151: one row, the filter byte 0 and then the pixels from left to right. -/
def rawRow (width : Nat) (px : Nat → Pixel) : List Byte :=
  0x00 :: (List.range width).flatMap fun x => (px x).bytes

/-- R151, R152: the rows from top to bottom; `px x y` is the pixel at column `x`, row `y`. -/
def rawScanlines (width height : Nat) (px : Nat → Nat → Pixel) : List Byte :=
  (List.range height).flatMap fun y => rawRow width fun x => px x y

/-- R181: the PNG signature `137 80 78 71 13 10 26 10`. -/
def pngSignature : List Byte := [0x89, 0x50, 0x4E, 0x47, 0x0D, 0x0A, 0x1A, 0x0A]

/-- R182: `ihdr(W, H) = BE32(W) ++ BE32(H) ++ [0x08, 0x02, 0x00, 0x00, 0x00]`. -/
def ihdrPayload (width height : Word) : List Byte :=
  be32 width ++ be32 height ++ [0x08, 0x02, 0x00, 0x00, 0x00]

/-- "IHDR" (R182). -/
def tagIhdr : ChunkTag := ⟨0x49, 0x48, 0x44, 0x52⟩

/-- "IDAT" (R183). -/
def tagIdat : ChunkTag := ⟨0x49, 0x44, 0x41, 0x54⟩

/-- "IEND" (R184). -/
def tagIend : ChunkTag := ⟨0x49, 0x45, 0x4E, 0x44⟩

/-- R180, R185: signature, IHDR, one IDAT with payload `z`, IEND. -/
def pngFile (width height : Word) (z : List Byte) : List Byte :=
  pngSignature ++ makeChunk tagIhdr (ihdrPayload width height) ++ makeChunk tagIdat z ++ makeChunk tagIend []

end Sys2Proof.Machine
end

