-- ==== Sys2Proof/Machine/Pseudo.lean ====
section
/-! DEFINITION. The pseudo-instructions of 30_encoding.md R82 to R88, as the command lists they expand to. -/

namespace Sys2Proof.Machine

/-- R82: `FR.TYPE "c0c1c2c3"`. -/
def frType (t : ChunkTag) : List Instr := t.bytes.map .frTypeb

/-- R83: `FR.LEN n`; both halves are always emitted, the upper one first. -/
def frLen (n : Word) : List Instr := [.frLenh (upperHalf n), .frLenl (lowerHalf n)]

/-- R84: `SL.DIM w, h`. -/
def slDim (width height : Word) : List Instr :=
  [.slWh (upperHalf width), .slWl (lowerHalf width), .slHh (upperHalf height), .slHl (lowerHalf height)]

/-- R85: `OUT.SIG`, one `OUT.BYTE` per byte of the PNG signature. -/
def outSig : List Instr := pngSignature.map .outByte

/-- R86: `CRC.BYTES b0, ..., bn-1`. -/
def crcBytes (bs : List Byte) : List Instr := bs.map .crcByte

/-- R86: `FR.DATAS b0, ..., bn-1`. -/
def frDatas (bs : List Byte) : List Instr := bs.map .frData

/-- R87: `FR.CHUNK "tttt", b0, ..., bn-1`, the command form of `makeChunk` for a payload below 2^32 bytes. -/
def frChunk (t : ChunkTag) (payload : List Byte) : List Instr :=
  frType t ++ frLen (BitVec.ofNat 32 payload.length) ++ [.frStart] ++ frDatas payload ++ [.frEnd]

/-- R88: `CRC.OF b0, ..., bn-1`, the command form of `crc32`. -/
def crcOf (bs : List Byte) : List Instr := [.crcInit] ++ crcBytes bs ++ [.crcFinal]

/-- One `SL.PIX` command for a pixel (R159). -/
def slPixel (p : Pixel) : Instr := .slPix p.r p.g p.bl

/-- The pixels of rows `y < height` and, within each, columns `x < width`, in raster order (R160). -/
def slPixels (width height : Nat) (px : Nat → Nat → Pixel) : List Instr :=
  (List.range height).flatMap fun y => (List.range width).map fun x => slPixel (px x y)

/-- R160: a whole scanline job. -/
def slJob (width height : Word) (px : Nat → Nat → Pixel) : List Instr :=
  slDim width height ++ [.slStart] ++ slPixels width.toNat height.toNat px

end Sys2Proof.Machine
end

