-- ==== Sys2Proof/Machine/Assembler.lean ====
section
/-! DEFINITION. The assembler syntax of 30_encoding.md R81 and the source forms of the pseudo-instructions
(R82 to R88). It has no effect on the block (decision D27): it turns one line of text, a list of characters,
into commands. What R81 to R88 leave open of the text's form is in log entries 12 and 19. -/

namespace Sys2Proof.Machine

/-- Why a line is refused: an assembler error, "not a block fault" (R81). -/
inductive AsmError where
  /-- The first word is no mnemonic of R75 and no pseudo-instruction of R82 to R88. -/
  | unknownMnemonic
  /-- An operand is no integer, character literal or string literal of R81, R86. -/
  | badOperand
  /-- The operands do not fit the command: their number, their kind or their range (R81). -/
  | operandsDoNotFit
  deriving DecidableEq, Repr

/-- An operand as it is written. -/
inductive AsmOperand where
  /-- An integer in decimal or `0x` hexadecimal. -/
  | int (n : Nat)
  /-- A character literal `'c'`, by its code. -/
  | chr (code : Nat)
  /-- A string literal `"..."`, by its character codes. -/
  | str (codes : List Nat)
  deriving DecidableEq, Repr

/-! ## Characters -/

/-- A blank between tokens (log entry 12). -/
def isBlank (c : Char) : Bool := c == ' ' || c == '\t'

/-- A character a literal may hold: code 0x20 to 0x7E (R81). -/
def isPrintable (c : Char) : Bool := 0x20 ≤ c.toNat && c.toNat ≤ 0x7E

/-- The value of a decimal digit. -/
def decDigit (c : Char) : Option Nat :=
  if 0x30 ≤ c.toNat && c.toNat ≤ 0x39 then some (c.toNat - 0x30) else none

/-- The value of a hexadecimal digit, either case. -/
def hexDigit (c : Char) : Option Nat :=
  if 0x61 ≤ c.toNat && c.toNat ≤ 0x66 then some (c.toNat - 0x57)
  else if 0x41 ≤ c.toNat && c.toNat ≤ 0x46 then some (c.toNat - 0x37)
  else decDigit c

/-- The number a digit string spells, from a value read so far. -/
def digits (digit : Char → Option Nat) (base : Nat) : Nat → List Char → Option Nat
  | n, [] => some n
  | n, c :: rest =>
    match digit c with
    | some d => digits digit base (n * base + d) rest
    | none => none

def trimLeft (cs : List Char) : List Char := cs.dropWhile isBlank

def trim (cs : List Char) : List Char := (trimLeft (trimLeft cs).reverse).reverse

/-! ## Lines -/

/-- Where the scanner of a line's operands stands. -/
inductive ScanMode where
  /-- Outside every literal. -/
  | plain
  /-- Right after the opening quote of a character literal. -/
  | inChar
  /-- After the character of a character literal. -/
  | afterChar
  /-- Inside a string literal. -/
  | inString
  deriving DecidableEq, Repr

/-- The text after an operand: nothing but blanks up to the end of the line, a comma or a comment. -/
def endsOperand (cs : List Char) : Bool :=
  match trimLeft cs with
  | [] => true
  | c :: _ => c == ',' || c == ';'

/-- Cuts text at its commas and ends it at `;`, both only outside literals. `piece` is the piece being read,
reversed; `done` the pieces before it, reversed. A `"` closes a string literal where an operand can end, and is a
character of it anywhere else (log entry 12). -/
def splitOperands : ScanMode → List Char → List (List Char) → List Char → List (List Char)
  | _, piece, done, [] => (piece.reverse :: done).reverse
  | .plain, piece, done, c :: rest =>
    if c == ';' then (piece.reverse :: done).reverse
    else if c == ',' then splitOperands .plain [] (piece.reverse :: done) rest
    else if c == '\'' then splitOperands .inChar (c :: piece) done rest
    else if c == '"' then splitOperands .inString (c :: piece) done rest
    else splitOperands .plain (c :: piece) done rest
  | .inChar, piece, done, c :: rest => splitOperands .afterChar (c :: piece) done rest
  | .afterChar, piece, done, c :: rest => splitOperands .plain (c :: piece) done rest
  | .inString, piece, done, c :: rest =>
    splitOperands (if c == '"' && endsOperand rest then .plain else .inString) (c :: piece) done rest

/-- The codes of a string literal's characters, after its opening quote: the last character is the closing quote. -/
def stringCodes : List Char → Option (List Nat)
  | [] => none
  | c :: rest =>
    if rest.isEmpty then (if c == '"' then some [] else none)
    else if isPrintable c then (stringCodes rest).map (c.toNat :: ·) else none

/-- One operand (R81, R86). -/
def parseOperand (cs : List Char) : Option AsmOperand :=
  match cs with
  | ['\'', c, '\''] => if isPrintable c then some (.chr c.toNat) else none
  | '"' :: rest => (stringCodes rest).map .str
  | '0' :: 'x' :: d :: rest => (digits hexDigit 16 0 (d :: rest)).map .int
  | d :: rest => (digits decDigit 10 0 (d :: rest)).map .int
  | [] => none

/-- One or more operands, separated by commas. -/
def parseOperandList (cs : List Char) : Option (List AsmOperand) :=
  ((splitOperands .plain [] [] cs).map trim).mapM parseOperand

/-- All operands of a line; an empty operand field holds none. -/
def parseOperands (cs : List Char) : Option (List AsmOperand) :=
  if (splitOperands .plain [] [] cs).map trim == [[]] then some [] else parseOperandList cs

/-- R82: a chunk type at the front of an operand field, exactly four characters of code 0x20 to 0x7E between
quotes. Its closing quote is found by its place, so that `"`, `,` and `;` are characters of a type like any
other. With it, the text after it. -/
def typeOperand : List Char → Option (AsmOperand × List Char)
  | q :: c0 :: c1 :: c2 :: c3 :: q' :: rest =>
    if q == '"' && q' == '"' && [c0, c1, c2, c3].all isPrintable && endsOperand rest then
      some (.str ([c0, c1, c2, c3].map Char.toNat), rest)
    else none
  | _ => none

/-- The operands after the first one: none, or a comma and a list. -/
def parseMoreOperands (cs : List Char) : Option (List AsmOperand) :=
  match trimLeft cs with
  | [] => some []
  | c :: rest => if c == ',' then parseOperandList rest else some []

/-- All operands of a pseudo-instruction whose first one is a chunk type (R82, R87). -/
def parseTypedOperands (cs : List Char) : Option (List AsmOperand) :=
  match typeOperand (trimLeft cs) with
  | some (tag, rest) => (parseMoreOperands rest).map (tag :: ·)
  | none => parseOperands cs

/-! ## Operand lists -/

/-- A byte operand: an integer or a character literal (R81); its range is checked with the command. -/
def byteOperand : AsmOperand → Option (List Nat)
  | .int n => some [n]
  | .chr code => some [code]
  | .str _ => none

/-- R86: in a byte list, "a string literal `"..."` stands for its character codes". -/
def byteListOperand : AsmOperand → Option (List Nat)
  | .int n => some [n]
  | .chr code => some [code]
  | .str codes => some codes

/-- An imm16 or 32-bit operand: an integer (R81, R83, R84). -/
def intOperand : AsmOperand → Option (List Nat)
  | .int n => some [n]
  | .chr _ => none
  | .str _ => none

/-- The numbers of an operand list, each operand read the same way. -/
def operandNumbers (read : AsmOperand → Option (List Nat)) (ops : List AsmOperand) : Option (List Nat) :=
  (ops.mapM read).map List.flatten

/-- A command of R75 by its opcode, from numbers its format admits. -/
def instrOf (op : Byte) (ns : List Nat) : Option Instr :=
  match op, ns with
  | 0x00#8, [] => some .nop
  | 0x01#8, [] => some .crcInit
  | 0x02#8, [b] => some (.crcByte (BitVec.ofNat 8 b))
  | 0x03#8, [] => some .crcFinal
  | 0x08#8, [b] => some (.outByte (BitVec.ofNat 8 b))
  | 0x10#8, [b] => some (.frTypeb (BitVec.ofNat 8 b))
  | 0x11#8, [v] => some (.frLenh (BitVec.ofNat 16 v))
  | 0x12#8, [v] => some (.frLenl (BitVec.ofNat 16 v))
  | 0x13#8, [] => some .frStart
  | 0x14#8, [b] => some (.frData (BitVec.ofNat 8 b))
  | 0x15#8, [] => some .frEnd
  | 0x20#8, [v] => some (.slWh (BitVec.ofNat 16 v))
  | 0x21#8, [v] => some (.slWl (BitVec.ofNat 16 v))
  | 0x22#8, [v] => some (.slHh (BitVec.ofNat 16 v))
  | 0x23#8, [v] => some (.slHl (BitVec.ofNat 16 v))
  | 0x24#8, [] => some .slStart
  | 0x25#8, [r, g, bl] => some (.slPix (BitVec.ofNat 8 r) (BitVec.ofNat 8 g) (BitVec.ofNat 8 bl))
  | _, _ => none

/-- R81: one command of a row, or an assembler error if an operand is out of range. -/
def assembleRow (row : OpcodeRow) (ops : List AsmOperand) : Except AsmError (List Instr) :=
  match operandNumbers (if row.format == .c then intOperand else byteOperand) ops with
  | none => .error .operandsDoNotFit
  | some ns =>
    if row.format.admits ns then
      match instrOf row.op ns with
      | some i => .ok [i]
      | none => .error .operandsDoNotFit
    else .error .operandsDoNotFit

/-- The bytes of a byte list (R86), each in range. -/
def assembleBytes (ops : List AsmOperand) : Except AsmError (List Byte) :=
  match operandNumbers byteListOperand ops with
  | none => .error .operandsDoNotFit
  | some ns => if ns.all (· < 256) then .ok (ns.map (BitVec.ofNat 8)) else .error .operandsDoNotFit

/-- R82: a type string has exactly four characters. -/
def assembleTag : AsmOperand → Except AsmError ChunkTag
  | .str [c0, c1, c2, c3] => .ok ⟨BitVec.ofNat 8 c0, BitVec.ofNat 8 c1, BitVec.ofNat 8 c2, BitVec.ofNat 8 c3⟩
  | .str _ => .error .operandsDoNotFit
  | .int _ => .error .operandsDoNotFit
  | .chr _ => .error .operandsDoNotFit

/-- A 32-bit operand: an integer below 2^32 (R83, R84). -/
def assembleWord : AsmOperand → Except AsmError Word
  | .int n => if n < 2 ^ 32 then .ok (BitVec.ofNat 32 n) else .error .operandsDoNotFit
  | .chr _ => .error .operandsDoNotFit
  | .str _ => .error .operandsDoNotFit

/-- The pseudo-instructions of R82 to R88. -/
inductive Pseudo where
  | frType
  | frLen
  | slDim
  | outSig
  | crcBytes
  | frDatas
  | frChunk
  | crcOf
  deriving DecidableEq, Repr

/-- Their names. -/
def pseudoMap : List (String × Pseudo) :=
  [("FR.TYPE", .frType), ("FR.LEN", .frLen), ("SL.DIM", .slDim), ("OUT.SIG", .outSig),
    ("CRC.BYTES", .crcBytes), ("FR.DATAS", .frDatas), ("FR.CHUNK", .frChunk), ("CRC.OF", .crcOf)]

/-- R82, R87: the pseudo-instructions whose first operand is a chunk type. -/
def Pseudo.takesType : Pseudo → Bool
  | .frType => true
  | .frChunk => true
  | .frLen => false
  | .slDim => false
  | .outSig => false
  | .crcBytes => false
  | .frDatas => false
  | .crcOf => false

/-- The operands of a pseudo-instruction (R82 to R88). -/
def parsePseudoOperands (p : Pseudo) (cs : List Char) : Option (List AsmOperand) :=
  if p.takesType then parseTypedOperands cs else parseOperands cs

/-- The expansion of a pseudo-instruction with its operands. -/
def assemblePseudo (p : Pseudo) (ops : List AsmOperand) : Except AsmError (List Instr) :=
  match p, ops with
  | .frType, [t] => (assembleTag t).map Machine.frType
  | .frLen, [n] => (assembleWord n).map Machine.frLen
  | .slDim, [width, height] => do
    let width ← assembleWord width
    let height ← assembleWord height
    return Machine.slDim width height
  | .outSig, [] => .ok Machine.outSig
  | .crcBytes, bs => (assembleBytes bs).map Machine.crcBytes
  | .frDatas, bs => (assembleBytes bs).map Machine.frDatas
  | .frChunk, t :: bs => do
    let tag ← assembleTag t
    let payload ← assembleBytes bs
    if payload.length < 2 ^ 32 then return Machine.frChunk tag payload else .error .operandsDoNotFit
  | .crcOf, bs => (assembleBytes bs).map Machine.crcOf
  | _, _ => .error .operandsDoNotFit

/-! ## One line of source -/

/-- A name's spelling in either case. R81 says so of the mnemonics of R75; for the names of the pseudo-instructions
the spec leaves it open, and the model accepts them in either case too (DESIGN CHOICE, log entry 19). -/
def sameMnemonic (cs : List Char) (name : String) : Bool := cs.map Char.toUpper == name.toList

/-- R81: one line whose first word is `name` and whose text after it is `rest`. That a pseudo-instruction's name may
be in either case is the model's choice (log entry 19). -/
def assembleNamed (name rest : List Char) : Except AsmError (List Instr) :=
  match opcodeMap.find? (fun row => sameMnemonic name row.mnemonic) with
  | some row =>
    match parseOperands rest with
    | some ops => assembleRow row ops
    | none => .error .badOperand
  | none =>
    match pseudoMap.find? (fun entry => sameMnemonic name entry.1) with
    | some entry =>
      match parsePseudoOperands entry.2 rest with
      | some ops => assemblePseudo entry.2 ops
      | none => .error .badOperand
    | none => .error .unknownMnemonic

/-- R81: the commands of one line. A line that is blank, or holds only a comment, has none (log entry 12). Names of
pseudo-instructions are accepted in either case (DESIGN CHOICE, log entry 19). -/
def assembleLine (line : List Char) : Except AsmError (List Instr) :=
  let body := trimLeft line
  let name := body.takeWhile fun c => !(isBlank c || c == ';')
  let rest := body.dropWhile fun c => !(isBlank c || c == ';')
  if name.isEmpty then .ok [] else assembleNamed name rest

/-- The command words of a program, one line after the other (R81: "One command per line"). -/
def assembleProgram : List (List Char) → Except AsmError (List Word)
  | [] => .ok []
  | line :: rest => do
    let commands ← assembleLine line
    let words ← assembleProgram rest
    return commands.map encode ++ words

end Sys2Proof.Machine
end

