-- ==== Sys2Proof/Machine/HostProcedure.lean ====
section
/-! DEFINITION. The host's PNG encode procedure (43_control_and_host.md R180 to R186). It is no block behaviour
(00_scope.md R7): it says what a host writes on CMD, and what it takes from RAW in between. The compressor is an
argument (R9, R172). -/

namespace Sys2Proof.Machine

/-- How the procedure ends. -/
inductive EncodeResult where
  /-- The file is complete; its bytes are the ones this run appended to OUT. -/
  | done (s : State)
  /-- STATUS.ERR was seen set; OUT and RAW are void (R207). -/
  | blockFault (s : State)
  /-- R172: the compressor failed, a host error that leaves the block as it was. -/
  | compressorFailed (s : State)
  /-- The compressor's output needs a length field above 32 bits, which `FR.LEN` cannot carry (R83; log entry 11). -/
  | payloadTooLong (s : State)
  deriving DecidableEq, Repr

/-- R180, step 1 and 2: the scanline job comes first, so the dimension check precedes every OUT byte. -/
def encodeJob (width height : Word) (px : Nat → Nat → Pixel) : List Instr := slJob width height px

/-- R180, steps 4 to 7. -/
def encodeFraming (width height : Word) (z : List Byte) : List Instr :=
  outSig ++ frChunk tagIhdr (ihdrPayload width height) ++ frChunk tagIdat z ++ frChunk tagIend []

/-- Steps 4 to 7 on the block, and the host's look at STATUS.ERR afterwards. -/
def encodeFrames (width height : Word) (z : List Byte) (s : State) : Host.Outcome EncodeResult Fault Refusal :=
  match issue (encodeFraming width height z) s with
  | .next t => .next (if t.err then .blockFault t else .done t)
  | .fault r => .fault r
  | .refused r => .refused r

/-- Step 3 and on: the host takes the RAW bytes of this job (those after the first `taken`), compresses them
(R172), and frames the result. -/
def encodeCompressed (compress : Config.Compress) (width height : Word) (taken : Nat) (s : State) :
    Host.Outcome EncodeResult Fault Refusal :=
  match compress (s.raw.drop taken) with
  | none => .next (.compressorFailed s)
  | some z => if z.length < 2 ^ 32 then encodeFrames width height z s else .next (.payloadTooLong s)

/-- R180: the whole procedure, from a block in state `s`. -/
def encodePng (compress : Config.Compress) (width height : Word) (px : Nat → Nat → Pixel) (s : State) :
    Host.Outcome EncodeResult Fault Refusal :=
  match issue (encodeJob width height px) s with
  | .next t => if t.err then .next (.blockFault t) else encodeCompressed compress width height s.raw.length t
  | .fault r => .fault r
  | .refused r => .refused r

end Sys2Proof.Machine
end

