-- ==== Sys2Proof/Safety.lean ====
section
/-! DEFINITION. The terms claims are stated in: the invariants of a reachable state (10_state.md R41), when a
run's output counts (60_exceptions.md R207, 70_reset_and_hazards.md R262), which command faults when
(60_exceptions.md R202, R203), and which half of the block a command belongs to (92_eei_decisions.md D30). -/

namespace Sys2Proof.Machine

/-- R41, with R35 ("one of the codes of R201") and R36 (FCMD is written only by fault entry). -/
structure State.Inv (s : State) : Prop where
  /-- "`TCNT <= 4`" -/
  tcnt_le : s.tcnt.toNat ≤ 4
  /-- "`FPH = IDLE` implies `REM = 0`" -/
  rem_idle : s.fph = .idle → s.rem = 0
  /-- "`SPH = ACTIVE` implies `W >= 1`, `H >= 1`, `X < W`, `Y < H`" (the last two imply the first two). -/
  active : s.sph = .active →
    1 ≤ s.w.toNat ∧ 1 ≤ s.h.toNat ∧ s.x.toNat < s.w.toNat ∧ s.y.toNat < s.h.toNat
  /-- "`SPH = IDLE` implies `X = 0`" -/
  x_idle : s.sph = .idle → s.x = 0
  /-- "`ERR = 0` if and only if `CAUSE = 0x00`" -/
  err_cause : s.err = false ↔ s.cause = 0x00
  /-- R201: "Codes 0x07 to 0xFF are never written." -/
  cause_le : s.cause.toNat ≤ 6
  /-- R36: before the first fault FCMD keeps its reset value. -/
  fcmd_clear : s.err = false → s.fcmd = 0

/-- R262: the end state of a run that ends cleanly. Only then are OUT and RAW valid (R207). -/
def State.cleanEnd (s : State) : Bool := !s.err && s.fph == .idle && s.sph == .idle

/-! ## The fault matrix, over raw words (R202, R203) -/

/-- R77: the opcodes of R75, as the complement of the ranges R77 lists. -/
def assignedOpcode (op : Byte) : Bool :=
  !((0x04 ≤ op.toNat && op.toNat ≤ 0x07) || (0x09 ≤ op.toNat && op.toNat ≤ 0x0F) ||
    (0x16 ≤ op.toNat && op.toNat ≤ 0x1F) || 0x26 ≤ op.toNat)

/-- R76: the reserved field of the format of an assigned opcode is zero. -/
def reservedFieldClear (w : Word) : Bool :=
  if [0x00#8, 0x01#8, 0x03#8, 0x13#8, 0x15#8, 0x24#8].contains (w.extractLsb' 24 8) then
    w.extractLsb' 0 24 == 0
  else if [0x02#8, 0x08#8, 0x10#8, 0x14#8].contains (w.extractLsb' 24 8) then w.extractLsb' 8 16 == 0
  else if [0x11#8, 0x12#8, 0x20#8, 0x21#8, 0x22#8, 0x23#8].contains (w.extractLsb' 24 8) then
    w.extractLsb' 16 8 == 0
  else true

/-- The column "SEQUENCE when" of R202, by opcode. -/
def sequenceFault (op : Byte) (s : State) : Bool :=
  if [0x01#8, 0x02#8, 0x03#8, 0x08#8, 0x13#8].contains op then s.fph == .payload
  else if [0x14#8, 0x15#8].contains op then s.fph == .idle
  else if [0x20#8, 0x21#8, 0x22#8, 0x23#8, 0x24#8].contains op then s.sph == .active
  else op == 0x25 && s.sph == .idle

/-- The column TYPE_LENGTH of R202: `FR.TYPEB` with TCNT = 4, `FR.START` with TCNT ≠ 4. -/
def typeLengthFault (op : Byte) (s : State) : Bool :=
  (op == 0x10 && s.tcnt == 4) || (op == 0x13 && s.tcnt != 4)

/-- The column TYPE_CHAR of R202: `FR.TYPEB` with b > 0x7F. -/
def typeCharFault (w : Word) : Bool := w.extractLsb' 24 8 == 0x10 && w.getLsbD 7

/-- The column LENGTH_MISMATCH of R202: `FR.DATA` with REM = 0, `FR.END` with REM ≠ 0. -/
def lengthFault (op : Byte) (s : State) : Bool :=
  (op == 0x14 && s.rem == 0) || (op == 0x15 && s.rem != 0)

/-- The column BAD_DIMENSION of R202: `SL.START` with W = 0 or H = 0 (R201). -/
def dimensionFault (op : Byte) (s : State) : Bool := op == 0x24 && (s.w == 0 || s.h == 0)

/-- R203: the cause a word reports, the first that applies in this order: ILLEGAL_CMD, then SEQUENCE, then the
command's operand check (TYPE_LENGTH before TYPE_CHAR). -/
def reportedCause (w : Word) (s : State) : Option Cause :=
  let op := w.extractLsb' 24 8
  if !(assignedOpcode op && reservedFieldClear w) then some .illegalCmd
  else if sequenceFault op s then some .sequence
  else if typeLengthFault op s then some .typeLength
  else if typeCharFault w then some .typeChar
  else if lengthFault op s then some .lengthMismatch
  else if dimensionFault op s then some .badDimension
  else none

/-! ## The two halves of the block (D30) -/

/-- The unit column of R75: the commands of the scanline prepender. Every other command belongs to the CRC unit
and the framer, which share CRC and RES, or is `NOP`. -/
def ofPrepender : Instr → Bool
  | .slWh _ => true
  | .slWl _ => true
  | .slHh _ => true
  | .slHl _ => true
  | .slStart => true
  | .slPix _ _ _ => true
  | .nop => false
  | .crcInit => false
  | .crcByte _ => false
  | .crcFinal => false
  | .outByte _ => false
  | .frTypeb _ => false
  | .frLenh _ => false
  | .frLenl _ => false
  | .frStart => false
  | .frData _ => false
  | .frEnd => false

/-- `s` with the prepender's registers and RAW as they are in `t`. -/
def State.withPrependerOf (s t : State) : State :=
  { s with w := t.w, h := t.h, x := t.x, y := t.y, sph := t.sph, raw := t.raw }

/-- The values RD answers to the reads among some actions, while the block's registers stand as in `s` (R53). -/
def readsOf (s : State) : List HostAction → List Word
  | [] => []
  | .command _ :: rest => readsOf s rest
  | .read index :: rest => readRegister index s :: readsOf s rest
  | .reset :: rest => readsOf s rest

end Sys2Proof.Machine
end

