-- ==== Sys2Proof/Certificates/Slice0/Obligations.lean ====
section
/-! DEFINITION. The statements about PFB-1, from the numbered rules of spec/. -/

namespace Sys2Proof.Machine

/-- "`ILLEGAL_CMD` if the field is not zero (decode)": a word with opcode `op` whose reserved field `reserved` is
not zero records cause 0x01 and the word itself, and nothing else changes. -/
def IllegalUnlessZero {n : Nat} (op : Byte) (reserved : Word → BitVec n) : Prop :=
  ∀ (w : Word) (s : State), s.err = false → w.extractLsb' 24 8 = op → reserved w ≠ 0 →
    acceptCommand w s = .next { s with err := true, cause := 0x01, fcmd := w }

end Sys2Proof.Machine

open Sys2Proof Sys2Proof.Machine

/-! ## Encoding -/

/-- Words written out from the spec's encodings decode to the commands they stand for (a sanity statement). -/
def Obligations.SampleWordsDecode : Prop :=
  decode 0x00000000 = .ok .nop ∧ decode 0x01000000 = .ok .crcInit ∧
  decode 0x02000031 = .ok (.crcByte 0x31) ∧ decode 0x08000089 = .ok (.outByte 0x89) ∧
  decode 0x10000049 = .ok (.frTypeb 0x49) ∧ decode 0x1100FFFF = .ok (.frLenh 0xFFFF) ∧
  decode 0x1200000D = .ok (.frLenl 0x000D) ∧ decode 0x13000000 = .ok .frStart ∧
  decode 0x140000AA = .ok (.frData 0xAA) ∧ decode 0x21000002 = .ok (.slWl 0x0002) ∧
  decode 0x24000000 = .ok .slStart ∧ decode 0x250A141E = .ok (.slPix 10 20 30)

/-- R70 to R75, R81: decoding the word of a well-formed command gives the command back, with every operand. -/
def Obligations.DecodeOfEncodeIsTheCommand : Prop :=
  ∀ i : Instr, i.wellFormed = true → decode (encode i) = .ok i

/-- R76 to R78: a word that decodes is the word of its command, bit for bit (so two words never share a meaning,
and the word a fault records in FCMD is the word the host wrote). -/
def Obligations.EncodeOfDecodeIsTheWord : Prop :=
  ∀ (w : Word) (i : Instr), decode w = .ok i → encode i = w

/-- R75: "a word `w` encodes the command when `w AND mask = match`", for every row of the opcode map, and no word
encodes the commands of two rows. -/
def Obligations.WordEncodesARowIffItMatches : Prop :=
  (∀ (w : Word) (row : OpcodeRow), row ∈ opcodeMap →
    (w &&& row.mask = row.matchWord ↔ ∃ i, decode w = .ok i ∧ rowOf i = row)) ∧
  (∀ (w : Word) (i : Instr), decode w = .ok i → rowOf i ∈ opcodeMap) ∧
  (∀ (w : Word) (row₁ row₂ : OpcodeRow), row₁ ∈ opcodeMap → row₂ ∈ opcodeMap →
    w &&& row₁.mask = row₁.matchWord → w &&& row₂.mask = row₂.matchWord → row₁ = row₂)

/-- R77: every opcode of the unassigned ranges is illegal, whatever the low 24 bits. -/
def Obligations.UnassignedOpcodesAreIllegal : Prop :=
  ∀ (w : Word) (s : State), s.err = false →
    ((0x04 ≤ (w.extractLsb' 24 8).toNat ∧ (w.extractLsb' 24 8).toNat ≤ 0x07) ∨
      (0x09 ≤ (w.extractLsb' 24 8).toNat ∧ (w.extractLsb' 24 8).toNat ≤ 0x0F) ∨
      (0x16 ≤ (w.extractLsb' 24 8).toNat ∧ (w.extractLsb' 24 8).toNat ≤ 0x1F) ∨
      0x26 ≤ (w.extractLsb' 24 8).toNat) →
    acceptCommand w s = .next { s with err := true, cause := 0x01, fcmd := w }

/-- R81: for integer operands, the assembler accepts exactly the operand lists a row's format admits, and gives the
command of that row with those operands. -/
def Obligations.AssemblerAcceptsExactlyInRangeOperands : Prop :=
  ∀ (row : OpcodeRow) (ns : List Nat), row ∈ opcodeMap →
    (row.format.admits ns = true →
      ∃ i, assembleRow row (ns.map .int) = .ok [i] ∧ rowOf i = row ∧ i.operands = ns) ∧
    (row.format.admits ns = false → assembleRow row (ns.map .int) = .error .operandsDoNotFit)

/-- R81 to R88: the spec's examples, and one line for each pseudo-instruction without an example, assemble to the
words the spec writes out (a sanity statement). -/
def Obligations.AssemblerExamples : Prop :=
  assembleProgram ["SL.PIX 255, 0, 0".toList, "FR.TYPEB 'I'".toList] = .ok [0x25FF0000, 0x10000049] ∧
  assembleProgram ["FR.TYPE \"IEND\"".toList] = .ok [0x10000049, 0x10000045, 0x1000004E, 0x10000044] ∧
  assembleProgram ["FR.LEN 13".toList] = .ok [0x11000000, 0x1200000D] ∧
  assembleProgram ["SL.DIM 2, 2".toList] = .ok [0x20000000, 0x21000002, 0x22000000, 0x23000002] ∧
  assembleProgram ["OUT.SIG".toList] = .ok [0x08000089, 0x08000050, 0x0800004E, 0x08000047, 0x0800000D,
    0x0800000A, 0x0800001A, 0x0800000A] ∧
  assembleProgram ["CRC.BYTES 0x31, \"23\"".toList, "FR.DATAS".toList, "FR.DATAS 17, 0x22 ; two".toList] =
    .ok [0x02000031, 0x02000032, 0x02000033, 0x14000011, 0x14000022] ∧
  assembleProgram ["FR.CHUNK \"IEND\"".toList] = .ok [0x10000049, 0x10000045, 0x1000004E, 0x10000044,
    0x11000000, 0x12000000, 0x13000000, 0x15000000] ∧
  assembleProgram ["CRC.OF \"1\"".toList] = .ok [0x01000000, 0x02000031, 0x03000000]

/-- R82: `FR.TYPE` takes every string of four characters of code 0x20 to 0x7E, the quotation mark, the comma and the
semicolon among them, and expands to their four `FR.TYPEB`. It refuses every other string (the second clause leaves
out a list of characters with both a quote and a separator, since its text can be a shorter string and more text
after it), and whatever text follows `FR.TYPE`, a line that assembles gives four `FR.TYPEB` of such codes. -/
def Obligations.TypeStringsAreFourPrintableCharacters : Prop :=
  (∀ c0 c1 c2 c3 : Char, (∀ c ∈ [c0, c1, c2, c3], 0x20 ≤ c.toNat ∧ c.toNat ≤ 0x7E) →
    assembleLine ("FR.TYPE \"".toList ++ [c0, c1, c2, c3] ++ ['"']) =
      .ok [.frTypeb (BitVec.ofNat 8 c0.toNat), .frTypeb (BitVec.ofNat 8 c1.toNat),
        .frTypeb (BitVec.ofNat 8 c2.toNat), .frTypeb (BitVec.ofNat 8 c3.toNat)]) ∧
  (∀ cs : List Char, ('"' ∉ cs ∨ (',' ∉ cs ∧ ';' ∉ cs)) →
    (cs.length ≠ 4 ∨ ∃ c ∈ cs, ¬ (0x20 ≤ c.toNat ∧ c.toNat ≤ 0x7E)) →
    ∃ e, assembleLine ("FR.TYPE \"".toList ++ cs ++ ['"']) = .error e) ∧
  ∀ (text : List Char) (commands : List Instr), assembleLine ("FR.TYPE ".toList ++ text) = .ok commands →
    ∃ n0 n1 n2 n3 : Nat, (∀ n ∈ [n0, n1, n2, n3], 0x20 ≤ n ∧ n ≤ 0x7E) ∧
      commands = [.frTypeb (BitVec.ofNat 8 n0), .frTypeb (BitVec.ofNat 8 n1),
        .frTypeb (BitVec.ofNat 8 n2), .frTypeb (BitVec.ofNat 8 n3)]

/-! ## Steps and ports -/

/-- R76, `Step(s, w)`: with a command word next at CMD, a step takes the word off and, in a faulted block, changes
nothing; otherwise it runs the command the word decodes to, or raises ILLEGAL_CMD for an illegal word. -/
def Obligations.StepRunsTheDecodedCommand : Prop :=
  ∀ (s : State) (w : Word) (rest : List HostAction), s.pending = .command w :: rest →
    (s.err = true → step s = .next { s with pending := rest }) ∧
    (∀ i, s.err = false → decode w = .ok i → i.wellFormed = true →
      step s = exec i { s with pending := rest }) ∧
    (∀ e, s.err = false → decode w = .error e →
      step s = .next { s with pending := rest, err := true, cause := 0x01, fcmd := w })

/-- R52: no step is refused and none stalls or stops: from every state a step answers a next state. With an action
pending, exactly that action is taken off. -/
def Obligations.EveryStepAnswersANextState : Prop :=
  ∀ s : State, ∃ t, step s = .next t ∧ t.pending = s.pending.tail

/-- R63: the host's actions take effect one at a time in order: running as many steps as there are actions at the
front of the pending list performs exactly those actions, and leaves the later ones pending. -/
def Obligations.StepsPerformPendingActionsInOrder : Prop :=
  ∀ (actions rest : List HostAction) (s t : State), s.pending = rest → performAll actions s = .next t →
    Host.Core.run Sys2Proof.core actions.length { s with pending := actions ++ rest } = .next t

/-- R53: a read step answers the register's value and changes nothing in the block, in any phase, faulted or not;
the reserved indices answer 0. -/
def Obligations.ReadStepChangesNoBlockState : Prop :=
  ∀ (s : State) (index : BitVec 4) (rest : List HostAction), s.pending = .read index :: rest →
    step s = .next { s with pending := rest, rdData := s.rdData ++ [readRegister index s] } ∧
      (0xB ≤ index.toNat → readRegister index s = 0)

/-- R43: the index map of RD, reserved indices reading 0. -/
def Obligations.ReadPortIndexMap : Prop :=
  ∀ s : State,
    readRegister 0x0 s = statusView s ∧ readRegister 0x1 s = s.res ∧ readRegister 0x2 s = s.crc ∧
    readRegister 0x3 s = s.type ∧ readRegister 0x4 s = s.len ∧ readRegister 0x5 s = s.rem ∧
    readRegister 0x6 s = s.w ∧ readRegister 0x7 s = s.h ∧ readRegister 0x8 s = s.x ∧
    readRegister 0x9 s = s.y ∧ readRegister 0xA s = s.fcmd ∧
    ∀ index : BitVec 4, 0xB ≤ index.toNat → readRegister index s = 0

/-- R37: the STATUS view, field by field, reserved fields 0, and its value at reset. -/
def Obligations.StatusFieldsReadTheirRegisters : Prop :=
  (∀ s : State,
    ((statusView s).getLsbD 0 = true ↔ s.fph = .payload) ∧
    ((statusView s).getLsbD 1 = true ↔ s.sph = .active) ∧
    (statusView s).getLsbD 2 = s.err ∧
    (statusView s).extractLsb' 3 5 = 0 ∧
    (statusView s).extractLsb' 8 3 = s.tcnt ∧
    (statusView s).extractLsb' 11 5 = 0 ∧
    (statusView s).extractLsb' 16 8 = s.cause ∧
    (statusView s).extractLsb' 24 8 = 0) ∧
  statusView State.reset = 0

/-- R250, R251, R56: a reset step puts every register at its reset value and starts empty streams, from any state. -/
def Obligations.ResetStepRestoresResetValues : Prop :=
  ∀ (s : State) (rest : List HostAction), s.pending = .reset :: rest →
    ∃ t, step s = .next t ∧
      t.crc = 0xFFFFFFFF ∧ t.res = 0 ∧ t.type = 0 ∧ t.len = 0 ∧ t.rem = 0 ∧ t.w = 0 ∧ t.h = 0 ∧
      t.x = 0 ∧ t.y = 0 ∧ t.fcmd = 0 ∧ t.tcnt = 0 ∧ t.fph = .idle ∧ t.sph = .idle ∧ t.err = false ∧
      t.cause = 0 ∧ t.out = [] ∧ t.raw = [] ∧ t.pending = rest ∧ t.rdData = s.rdData

/-- R42: the state after reset. -/
def Obligations.ResetStateHasTheResetValues : Prop :=
  State.reset.crc = 0xFFFFFFFF ∧ State.reset.res = 0 ∧ State.reset.type = 0 ∧ State.reset.tcnt = 0 ∧
  State.reset.len = 0 ∧ State.reset.rem = 0 ∧ State.reset.fph = .idle ∧ State.reset.w = 0 ∧
  State.reset.h = 0 ∧ State.reset.x = 0 ∧ State.reset.y = 0 ∧ State.reset.sph = .idle ∧
  State.reset.err = false ∧ State.reset.cause = 0 ∧ State.reset.fcmd = 0 ∧ State.reset.out = [] ∧
  State.reset.raw = []

/-- The model's choice (log entry 2, from R218 "it holds its state between commands indefinitely"): with no host
action pending a step changes nothing. -/
def Obligations.IdleStepHoldsTheState : Prop :=
  ∀ s : State, s.pending = [] → step s = .next s

/-! ## Invariants and whole-machine rules -/

/-- R41: every step keeps the invariants of a reachable state, whatever the host does. -/
def Obligations.EveryStepKeepsTheInvariants : Prop :=
  ∀ s t : State, s.Inv → step s = .next t → t.Inv

/-- R41, R42: the invariants hold after reset. -/
def Obligations.ResetMeetsTheInvariants : Prop := State.reset.Inv

/-- R204, R205: a word that faults changes nothing but ERR, CAUSE and FCMD, and FCMD is the word the host wrote,
bit for bit; the cause is one of the six codes of R201. -/
def Obligations.FaultsArePrecise : Prop :=
  ∀ (w : Word) (s t : State), s.err = false → acceptCommand w s = .next t → t.err = true →
    t = { s with err := true, cause := t.cause, fcmd := w } ∧ 1 ≤ t.cause.toNat ∧ t.cause.toNat ≤ 6

/-- R201 to R203: the cause codes, the fault matrix and the order of causes, for every word and state: a word is
executed without recording a fault if and only if no cause of the matrix applies, and otherwise the first one in
order is reported. -/
def Obligations.FaultMatrixAndPriority : Prop :=
  (Cause.illegalCmd.code = 0x01 ∧ Cause.sequence.code = 0x02 ∧ Cause.typeLength.code = 0x03 ∧
    Cause.typeChar.code = 0x04 ∧ Cause.lengthMismatch.code = 0x05 ∧ Cause.badDimension.code = 0x06) ∧
  ∀ (w : Word) (s : State), s.err = false →
    (∀ c, reportedCause w s = some c →
      acceptCommand w s = .next { s with err := true, cause := c.code, fcmd := w }) ∧
    (reportedCause w s = none →
      ∃ t, acceptCommand w s = .next t ∧ t.err = false ∧ t.cause = s.cause ∧ t.fcmd = s.fcmd)

/-- R206: a faulted block stays as it is under every list of words and reads; the reads still answer its registers
(R53). -/
def Obligations.FaultedBlockIgnoresEveryWord : Prop :=
  ∀ (s : State) (actions : List HostAction), s.err = true → HostAction.reset ∉ actions →
    performAll actions s = .next { s with rdData := s.rdData ++ readsOf s actions }

/-- R38: within a run (no reset), commands and reads only append to OUT and RAW. -/
def Obligations.StreamsOnlyGrowWithinARun : Prop :=
  ∀ (actions : List HostAction) (s t : State), HostAction.reset ∉ actions → performAll actions s = .next t →
    s.out <+: t.out ∧ s.raw <+: t.raw

/-- R22 to R36, R38 ("Written by", "Set by"), R39: each register and stream changes only under the commands named
as its writers, ERR, CAUSE and FCMD only by fault entry, and no command touches the host's side of the ports. -/
def Obligations.RegistersChangeOnlyByTheirWriters : Prop :=
  ∀ (i : Instr) (s t : State), exec i s = .next t →
    (t.crc ≠ s.crc → (rowOf i).mnemonic ∈ ["CRC.INIT", "CRC.BYTE", "FR.START", "FR.DATA"]) ∧
    (t.res ≠ s.res → (rowOf i).mnemonic ∈ ["CRC.FINAL", "FR.END"]) ∧
    (t.type ≠ s.type → (rowOf i).mnemonic ∈ ["FR.TYPEB"]) ∧
    (t.tcnt ≠ s.tcnt → (rowOf i).mnemonic ∈ ["FR.TYPEB", "FR.START"]) ∧
    (t.len ≠ s.len → (rowOf i).mnemonic ∈ ["FR.LENH", "FR.LENL"]) ∧
    (t.rem ≠ s.rem → (rowOf i).mnemonic ∈ ["FR.START", "FR.DATA"]) ∧
    (t.fph ≠ s.fph → (rowOf i).mnemonic ∈ ["FR.START", "FR.END"]) ∧
    (t.w ≠ s.w → (rowOf i).mnemonic ∈ ["SL.WH", "SL.WL"]) ∧
    (t.h ≠ s.h → (rowOf i).mnemonic ∈ ["SL.HH", "SL.HL"]) ∧
    (t.x ≠ s.x → (rowOf i).mnemonic ∈ ["SL.START", "SL.PIX"]) ∧
    (t.y ≠ s.y → (rowOf i).mnemonic ∈ ["SL.START", "SL.PIX"]) ∧
    (t.sph ≠ s.sph → (rowOf i).mnemonic ∈ ["SL.START", "SL.PIX"]) ∧
    (t.out ≠ s.out → (rowOf i).mnemonic ∈ ["OUT.BYTE", "FR.START", "FR.DATA", "FR.END"]) ∧
    (t.raw ≠ s.raw → (rowOf i).mnemonic ∈ ["SL.PIX"]) ∧
    ((t.err ≠ s.err ∨ t.cause ≠ s.cause ∨ t.fcmd ≠ s.fcmd) →
      ∃ c : Cause, t = { s with err := true, cause := c.code, fcmd := encode i }) ∧
    t.pending = s.pending ∧ t.rdData = s.rdData

/-- Decision D30 (R130, R160): the prepender and the rest of the block do not interfere. From a fault-free run of
any command list, the framer and CRC registers and OUT come from the commands outside the prepender alone, and the
prepender's registers and RAW from the prepender's commands alone, each sub-list running without a fault. -/
def Obligations.PrependerAndFramerDoNotInterfere : Prop :=
  ∀ (commands : List Instr) (s t : State), s.err = false → issue commands s = .next t → t.err = false →
    issue (commands.filter fun i => !ofPrepender i) s = .next (t.withPrependerOf s) ∧
    issue (commands.filter ofPrepender) s = .next (s.withPrependerOf t)

/-- R257: during a job no word changes W or H; loading LEN or TYPE during a frame does not touch the open frame
(REM, CRC, OUT and the phase). -/
def Obligations.DimensionsFrozenDuringAJob : Prop :=
  (∀ (w : Word) (s t : State), s.sph = .active → acceptCommand w s = .next t → t.w = s.w ∧ t.h = s.h) ∧
  (∀ (imm : Half) (b : Byte) (s : State), s.fph = .payload → s.tcnt.toNat < 4 → b.toNat ≤ 0x7F →
    ∀ i ∈ [Instr.frLenh imm, .frLenl imm, .frTypeb b], ∃ t, exec i s = .next t ∧ t.err = s.err ∧
      t.rem = s.rem ∧ t.crc = s.crc ∧ t.out = s.out ∧ t.fph = .payload)

/-- R121: whatever commands lie between an accepted `FR.START` and the accepted `FR.END` that closes its frame, the
bytes on OUT are one chunk: the declared length equals the number of payload bytes, and the CRC is computed over
type and payload and never over the length. -/
def Obligations.EveryClosedFrameIsAChunk : Prop :=
  ∀ (commands : List Instr) (s t : State), s.err = false → Instr.frEnd ∉ commands →
    issue ([.frStart] ++ commands ++ [.frEnd]) s = .next t → t.err = false →
    ∃ payload : List Byte, payload.length = s.len.toNat ∧
      t.out = s.out ++ be32 s.len ++ be32 s.type ++ payload ++ be32 (crc32 (be32 s.type ++ payload))

/-- R153: whatever other commands are mixed in, a job that has ended without a fault has put exactly
`H * (1 + 3 * W)` bytes on RAW, for the W and H it started with. -/
def Obligations.EveryFinishedJobHasFullLength : Prop :=
  ∀ (commands : List Instr) (s t : State), s.err = false → Instr.slStart ∉ commands →
    issue ([.slStart] ++ commands) s = .next t → t.err = false → t.sph = .idle →
    t.raw.length = s.raw.length + s.h.toNat * (1 + 3 * s.w.toNat)

/-! ## The CRC-32 functions -/

/-- R109: with `T[n] = crc_upd(0x00000000, n)`, the table form of the byte update equals the eight rounds of R101, and the sample entries. -/
def Obligations.CrcTableFormEqualsTheRounds : Prop :=
  (∀ (c : Word) (b : Byte), crcUpd c b = (c >>> 8) ^^^ crcTable ((c ^^^ zext32 b).extractLsb' 0 8)) ∧
  (∀ n : Byte, crcTable n = crcUpd 0x00000000 n) ∧
  crcTable 0x00 = 0x00000000 ∧ crcTable 0x01 = 0x77073096 ∧ crcTable 0x02 = 0xEE0E612C ∧
  crcTable 0x80 = 0xEDB88320 ∧ crcTable 0xFF = 0x2D02EF8D

/-- R104: the check values. -/
def Obligations.CrcCheckValues : Prop :=
  crc32 [0x31, 0x32, 0x33, 0x34, 0x35, 0x36, 0x37, 0x38, 0x39] = 0xCBF43926 ∧ crc32 [] = 0x00000000

/-- 91_not_in_source.md (40_crc.md entry) with R100's remark on 0x04C11DB7 (general knowledge): the block's CRC is
the bit-reversed form of the MSB-first one, when the register and the input byte are both reflected. -/
def Obligations.CrcIsTheMirroredPolynomial : Prop :=
  ∀ (c : Word) (b : Byte), (crcUpd c b).reverse = crcMirrorUpd c.reverse b

/-! ## What command sequences compute -/

/-- R108: `CRC.OF` computes the source's `crc32`. -/
def Obligations.CrcOfComputesCrc32 : Prop :=
  ∀ (bs : List Byte) (s : State), s.err = false → s.fph = .idle →
    issue (crcOf bs) s = .next { s with res := crc32 bs, crc := crc32 bs ^^^ 0xFFFFFFFF }

/-- R252: directly after a reset a `CRC.BYTE` sequence computes a fresh checksum without `CRC.INIT`. -/
def Obligations.ChecksumRightAfterReset : Prop :=
  ∀ (bs : List Byte) (s : State),
    performAll (.reset :: (crcBytes bs ++ [Instr.crcFinal]).map fun i => .command (encode i)) s =
      .next { State.reset with res := crc32 bs, crc := crc32 bs ^^^ 0xFFFFFFFF, pending := s.pending,
                               rdData := s.rdData }

/-- R82 to R85: the pseudo-instructions load TYPE, LEN, W and H and emit the signature. -/
def Obligations.PseudoInstructionsLoadTheirOperands : Prop :=
  ∀ s : State, s.err = false →
    (∀ t : ChunkTag, t.ascii = true → s.tcnt = 0 →
      issue (frType t) s = .next { s with type := t.word, tcnt := 4 }) ∧
    (∀ n : Word, issue (frLen n) s = .next { s with len := n }) ∧
    (∀ width height : Word, s.sph = .idle →
      issue (slDim width height) s = .next { s with w := width, h := height }) ∧
    (s.fph = .idle →
      issue outSig s = .next { s with out := s.out ++ [137, 80, 78, 71, 13, 10, 26, 10] })

/-- R130: the command form of `makeChunk`; the last clause is its interleaving with prepender commands. -/
def Obligations.ChunkSequenceEmitsMakeChunk : Prop :=
  ∀ (tag : ChunkTag) (payload : List Byte) (s : State), tag.ascii = true → payload.length < 2 ^ 32 →
    s.err = false → s.fph = .idle → s.tcnt = 0 →
    issue (frChunk tag payload) s = .next { s with
      out := s.out ++ makeChunk tag payload, fph := .idle, tcnt := 0, rem := 0,
      len := BitVec.ofNat 32 payload.length, type := tag.word,
      res := crc32 (tag.bytes ++ payload), crc := crc32 (tag.bytes ++ payload) ^^^ 0xFFFFFFFF } ∧
    ∀ (commands : List Instr) (t : State), (commands.filter fun i => !ofPrepender i) = frChunk tag payload →
      issue commands s = .next t → t.err = false → t.out = s.out ++ makeChunk tag payload

/-- R131, R120: the length, the first four and the last four bytes of a chunk. -/
def Obligations.ChunkLengthAndCrcFields : Prop :=
  ∀ (tag : ChunkTag) (payload : List Byte), payload.length < 2 ^ 32 →
    (makeChunk tag payload).length = 12 + payload.length ∧
    ofBigEndian ((makeChunk tag payload).take 4) = payload.length ∧
    ofBigEndian ((makeChunk tag payload).drop (8 + payload.length)) =
      (crc32 (tag.bytes ++ payload)).toNat

/-- R160: the command form of `rawScanlines`; X and Y hold the next pixel's coordinates before each `SL.PIX`; the
last clause is the interleaving with the rest of the block's commands. -/
def Obligations.ScanlineJobEmitsRawScanlines : Prop :=
  ∀ (width height : Word) (px : Nat → Nat → Pixel) (s : State), width ≠ 0 → height ≠ 0 → s.err = false →
    s.sph = .idle →
    issue (slJob width height px) s = .next { s with
      w := width, h := height, x := 0, y := height, sph := .idle,
      raw := s.raw ++ rawScanlines width.toNat height.toNat px } ∧
    (rawScanlines width.toNat height.toNat px).length = height.toNat * (1 + 3 * width.toNat) ∧
    (∀ x y : Nat, x < width.toNat → y < height.toNat →
      ∃ t, issue (slDim width height ++ [.slStart] ++
          (slPixels width.toNat height.toNat px).take (y * width.toNat + x)) s = .next t ∧
        t.err = false ∧ t.sph = .active ∧ t.x.toNat = x ∧ t.y.toNat = y ∧
        (slPixels width.toNat height.toNat px)[y * width.toNat + x]? = some (slPixel (px x y))) ∧
    ∀ (commands : List Instr) (t : State), commands.filter ofPrepender = slJob width height px →
      issue commands s = .next t → t.err = false →
      t.raw = s.raw ++ rawScanlines width.toNat height.toNat px

/-- R180 to R185: the host's encode procedure, for every compressor that answers some `z`, puts exactly the
signature, the IHDR chunk, one IDAT chunk with payload `z` and the IEND chunk on OUT, `57 + len(z)` bytes, and ends
cleanly. -/
def Obligations.EncodeProcedureEmitsThePngFile : Prop :=
  ∀ (compress : Config.Compress) (width height : Word) (px : Nat → Nat → Pixel) (z : List Byte) (s : State),
    width ≠ 0 → height ≠ 0 → s.err = false → s.fph = .idle → s.sph = .idle → s.tcnt = 0 →
    compress (rawScanlines width.toNat height.toNat px) = some z → z.length < 2 ^ 32 →
    ∃ t, encodePng compress width height px s = .next (.done t) ∧ t.cleanEnd = true ∧
      t.out.length = s.out.length + (57 + z.length) ∧
      t.out = s.out ++ [137, 80, 78, 71, 13, 10, 26, 10] ++
        makeChunk ⟨0x49, 0x48, 0x44, 0x52⟩ (be32 width ++ be32 height ++ [8, 2, 0, 0, 0]) ++
        makeChunk ⟨0x49, 0x44, 0x41, 0x54⟩ z ++ makeChunk ⟨0x49, 0x45, 0x4E, 0x44⟩ []

/-- R186: with a zero dimension the procedure ends in BAD_DIMENSION, and with a failing compressor in a host error,
both with no byte added to OUT. -/
def Obligations.EncodeProcedureFailuresEmitNothing : Prop :=
  ∀ (compress : Config.Compress) (width height : Word) (px : Nat → Nat → Pixel) (s : State),
    s.err = false → s.fph = .idle → s.sph = .idle → s.tcnt = 0 →
    ((width = 0 ∨ height = 0) →
      ∃ t, encodePng compress width height px s = .next (.blockFault t) ∧ t.out = s.out ∧
        t.cause = 0x06 ∧ t.fcmd = 0x24000000) ∧
    (width ≠ 0 → height ≠ 0 → compress (rawScanlines width.toNat height.toNat px) = none →
      ∃ t, encodePng compress width height px s = .next (.compressorFailed t) ∧ t.out = s.out ∧
        t.err = false)

/-- R184: the IEND chunk's twelve bytes. -/
def Obligations.IendChunkBytes : Prop :=
  makeChunk tagIend [] = [0x00, 0x00, 0x00, 0x00, 0x49, 0x45, 0x4E, 0x44, 0xAE, 0x42, 0x60, 0x82]

/-! ## The commands, one by one: encoding, faults, result and frame -/

/-- R170. -/
def Obligations.NopHasNoEffect : Prop :=
  encode .nop = 0x00000000 ∧ IllegalUnlessZero 0x00 (fun w => w.extractLsb' 0 24) ∧
  ∀ s : State, exec .nop s = .next s

/-- R170: `NOP` "is the only assigned word whose execution never changes state". -/
def Obligations.OnlyNopNeverChangesState : Prop :=
  ∀ (w : Word) (i : Instr), decode w = .ok i →
    ((∀ s : State, s.err = false → acceptCommand w s = .next s) ↔ w = 0x00000000)

/-- R105. -/
def Obligations.CrcInitStartsAChecksum : Prop :=
  encode .crcInit = 0x01000000 ∧ IllegalUnlessZero 0x01 (fun w => w.extractLsb' 0 24) ∧
  ∀ s : State,
    (s.fph = .payload →
      exec .crcInit s = .next { s with err := true, cause := 0x02, fcmd := 0x01000000 }) ∧
    (s.fph = .idle → exec .crcInit s = .next { s with crc := 0xFFFFFFFF })

/-- R106, with its corner cases and example. -/
def Obligations.CrcByteFoldsOneByte : Prop :=
  (∀ b : Byte, encode (.crcByte b) = 0x02000000 ||| zext32 b) ∧
  IllegalUnlessZero 0x02 (fun w => w.extractLsb' 8 16) ∧
  (∀ (b : Byte) (s : State),
    (s.fph = .payload →
      exec (.crcByte b) s = .next { s with err := true, cause := 0x02, fcmd := 0x02000000 ||| zext32 b }) ∧
    (s.fph = .idle → exec (.crcByte b) s = .next { s with crc := crcUpd s.crc b })) ∧
  crcUpd 0xFFFFFFFF 0x00 = 0x2DFD1072 ∧ crcUpd 0xFFFFFFFF 0xFF = 0x00FFFFFF ∧ crcUpd 0 0x00 = 0 ∧
  crcUpd 0xFFFFFFFF 0x31 = 0x7C231048

/-- R107, with its example. -/
def Obligations.CrcFinalPublishesTheComplement : Prop :=
  encode .crcFinal = 0x03000000 ∧ IllegalUnlessZero 0x03 (fun w => w.extractLsb' 0 24) ∧
  ∀ s : State,
    (s.fph = .payload →
      exec .crcFinal s = .next { s with err := true, cause := 0x02, fcmd := 0x03000000 }) ∧
    (s.fph = .idle → exec .crcFinal s = .next { s with res := ~~~s.crc }) ∧
    (s.fph = .idle → s.crc = 0x340BC6D9 → exec .crcFinal s = .next { s with res := 0xCBF43926 })

/-- R123. -/
def Obligations.OutByteEmitsOutsideAFrame : Prop :=
  (∀ b : Byte, encode (.outByte b) = 0x08000000 ||| zext32 b) ∧
  IllegalUnlessZero 0x08 (fun w => w.extractLsb' 8 16) ∧
  ∀ (b : Byte) (s : State),
    (s.fph = .payload →
      exec (.outByte b) s = .next { s with err := true, cause := 0x02, fcmd := 0x08000000 ||| zext32 b }) ∧
    (s.fph = .idle → exec (.outByte b) s = .next { s with out := s.out ++ [b] })

/-- R124: the byte enters at the low end, the top byte leaves; TYPE_LENGTH is checked before TYPE_CHAR. -/
def Obligations.FrTypebShiftsACharacterIn : Prop :=
  (∀ b : Byte, encode (.frTypeb b) = 0x10000000 ||| zext32 b) ∧
  IllegalUnlessZero 0x10 (fun w => w.extractLsb' 8 16) ∧
  ∀ (b : Byte) (s : State),
    (s.tcnt = 4 →
      exec (.frTypeb b) s = .next { s with err := true, cause := 0x03, fcmd := 0x10000000 ||| zext32 b }) ∧
    (s.tcnt ≠ 4 → 0x7F < b.toNat →
      exec (.frTypeb b) s = .next { s with err := true, cause := 0x04, fcmd := 0x10000000 ||| zext32 b }) ∧
    (s.tcnt ≠ 4 → b.toNat ≤ 0x7F →
      ∃ type : Word, exec (.frTypeb b) s = .next { s with type := type, tcnt := s.tcnt + 1 } ∧
        type.extractLsb' 0 8 = b ∧ type.extractLsb' 8 24 = s.type.extractLsb' 0 24)

/-- R125: `LEN[31:16]` is loaded, `LEN[15:0]` is kept, in either phase. -/
def Obligations.FrLenhLoadsTheUpperHalf : Prop :=
  (∀ imm : Half, encode (.frLenh imm) = 0x11000000 ||| zext32 imm) ∧
  IllegalUnlessZero 0x11 (fun w => w.extractLsb' 16 8) ∧
  ∀ (imm : Half) (s : State), ∃ v : Word, exec (.frLenh imm) s = .next { s with len := v } ∧
    v.extractLsb' 16 16 = imm ∧ v.extractLsb' 0 16 = s.len.extractLsb' 0 16

/-- R126: `LEN[15:0]` is loaded, `LEN[31:16]` is kept, in either phase. -/
def Obligations.FrLenlLoadsTheLowerHalf : Prop :=
  (∀ imm : Half, encode (.frLenl imm) = 0x12000000 ||| zext32 imm) ∧
  IllegalUnlessZero 0x12 (fun w => w.extractLsb' 16 8) ∧
  ∀ (imm : Half) (s : State), ∃ v : Word, exec (.frLenl imm) s = .next { s with len := v } ∧
    v.extractLsb' 0 16 = imm ∧ v.extractLsb' 16 16 = s.len.extractLsb' 16 16

/-- R127, with its example's CRC seed. -/
def Obligations.FrStartOpensAFrame : Prop :=
  encode .frStart = 0x13000000 ∧ IllegalUnlessZero 0x13 (fun w => w.extractLsb' 0 24) ∧
  (∀ s : State,
    (s.fph = .payload →
      exec .frStart s = .next { s with err := true, cause := 0x02, fcmd := 0x13000000 }) ∧
    (s.fph = .idle → s.tcnt ≠ 4 →
      exec .frStart s = .next { s with err := true, cause := 0x03, fcmd := 0x13000000 }) ∧
    (s.fph = .idle → s.tcnt = 4 →
      exec .frStart s = .next { s with
        out := s.out ++
          [s.len.extractLsb' 24 8, s.len.extractLsb' 16 8, s.len.extractLsb' 8 8, s.len.extractLsb' 0 8,
            s.type.extractLsb' 24 8, s.type.extractLsb' 16 8, s.type.extractLsb' 8 8,
            s.type.extractLsb' 0 8],
        crc := crcUpd (crcUpd (crcUpd (crcUpd 0xFFFFFFFF (s.type.extractLsb' 24 8))
          (s.type.extractLsb' 16 8)) (s.type.extractLsb' 8 8)) (s.type.extractLsb' 0 8),
        rem := s.len, tcnt := 0, fph := .payload })) ∧
  crcUpd (crcUpd (crcUpd (crcUpd 0xFFFFFFFF 0x49) 0x48) 0x44) 0x52 = 0x575E51F5

/-- R128, with its example. -/
def Obligations.FrDataEmitsAPayloadByte : Prop :=
  (∀ b : Byte, encode (.frData b) = 0x14000000 ||| zext32 b) ∧
  IllegalUnlessZero 0x14 (fun w => w.extractLsb' 8 16) ∧
  (∀ (b : Byte) (s : State),
    (s.fph = .idle →
      exec (.frData b) s = .next { s with err := true, cause := 0x02, fcmd := 0x14000000 ||| zext32 b }) ∧
    (s.fph = .payload → s.rem = 0 →
      exec (.frData b) s = .next { s with err := true, cause := 0x05, fcmd := 0x14000000 ||| zext32 b }) ∧
    (s.fph = .payload → s.rem ≠ 0 →
      ∃ rem : Word, exec (.frData b) s = .next { s with out := s.out ++ [b], crc := crcUpd s.crc b, rem := rem } ∧
        rem.toNat + 1 = s.rem.toNat)) ∧
  crcUpd 0x575E51F5 0x00 = 0xCD8058C2

/-- R129. -/
def Obligations.FrEndClosesTheFrame : Prop :=
  encode .frEnd = 0x15000000 ∧ IllegalUnlessZero 0x15 (fun w => w.extractLsb' 0 24) ∧
  ∀ s : State,
    (s.fph = .idle →
      exec .frEnd s = .next { s with err := true, cause := 0x02, fcmd := 0x15000000 }) ∧
    (s.fph = .payload → s.rem ≠ 0 →
      exec .frEnd s = .next { s with err := true, cause := 0x05, fcmd := 0x15000000 }) ∧
    (s.fph = .payload → s.rem = 0 →
      exec .frEnd s = .next { s with
        out := s.out ++ [(~~~s.crc).extractLsb' 24 8, (~~~s.crc).extractLsb' 16 8,
          (~~~s.crc).extractLsb' 8 8, (~~~s.crc).extractLsb' 0 8],
        res := ~~~s.crc, fph := .idle })

/-- R154: `W[31:16]` is loaded, `W[15:0]` is kept, outside a job. -/
def Obligations.SlWhLoadsTheUpperWidth : Prop :=
  (∀ imm : Half, encode (.slWh imm) = 0x20000000 ||| zext32 imm) ∧
  IllegalUnlessZero 0x20 (fun w => w.extractLsb' 16 8) ∧
  ∀ (imm : Half) (s : State),
    (s.sph = .active →
      exec (.slWh imm) s = .next { s with err := true, cause := 0x02, fcmd := 0x20000000 ||| zext32 imm }) ∧
    (s.sph = .idle → ∃ v : Word, exec (.slWh imm) s = .next { s with w := v } ∧
      v.extractLsb' 16 16 = imm ∧ v.extractLsb' 0 16 = s.w.extractLsb' 0 16)

/-- R155: `W[15:0]` is loaded, `W[31:16]` is kept, outside a job. -/
def Obligations.SlWlLoadsTheLowerWidth : Prop :=
  (∀ imm : Half, encode (.slWl imm) = 0x21000000 ||| zext32 imm) ∧
  IllegalUnlessZero 0x21 (fun w => w.extractLsb' 16 8) ∧
  ∀ (imm : Half) (s : State),
    (s.sph = .active →
      exec (.slWl imm) s = .next { s with err := true, cause := 0x02, fcmd := 0x21000000 ||| zext32 imm }) ∧
    (s.sph = .idle → ∃ v : Word, exec (.slWl imm) s = .next { s with w := v } ∧
      v.extractLsb' 0 16 = imm ∧ v.extractLsb' 16 16 = s.w.extractLsb' 16 16)

/-- R156: `H[31:16]` is loaded, `H[15:0]` is kept, outside a job. -/
def Obligations.SlHhLoadsTheUpperHeight : Prop :=
  (∀ imm : Half, encode (.slHh imm) = 0x22000000 ||| zext32 imm) ∧
  IllegalUnlessZero 0x22 (fun w => w.extractLsb' 16 8) ∧
  ∀ (imm : Half) (s : State),
    (s.sph = .active →
      exec (.slHh imm) s = .next { s with err := true, cause := 0x02, fcmd := 0x22000000 ||| zext32 imm }) ∧
    (s.sph = .idle → ∃ v : Word, exec (.slHh imm) s = .next { s with h := v } ∧
      v.extractLsb' 16 16 = imm ∧ v.extractLsb' 0 16 = s.h.extractLsb' 0 16)

/-- R157: `H[15:0]` is loaded, `H[31:16]` is kept, outside a job. -/
def Obligations.SlHlLoadsTheLowerHeight : Prop :=
  (∀ imm : Half, encode (.slHl imm) = 0x23000000 ||| zext32 imm) ∧
  IllegalUnlessZero 0x23 (fun w => w.extractLsb' 16 8) ∧
  ∀ (imm : Half) (s : State),
    (s.sph = .active →
      exec (.slHl imm) s = .next { s with err := true, cause := 0x02, fcmd := 0x23000000 ||| zext32 imm }) ∧
    (s.sph = .idle → ∃ v : Word, exec (.slHl imm) s = .next { s with h := v } ∧
      v.extractLsb' 0 16 = imm ∧ v.extractLsb' 16 16 = s.h.extractLsb' 16 16)

/-- R158. -/
def Obligations.SlStartBeginsAJob : Prop :=
  encode .slStart = 0x24000000 ∧ IllegalUnlessZero 0x24 (fun w => w.extractLsb' 0 24) ∧
  ∀ s : State,
    (s.sph = .active →
      exec .slStart s = .next { s with err := true, cause := 0x02, fcmd := 0x24000000 }) ∧
    (s.sph = .idle → (s.w = 0 ∨ s.h = 0) →
      exec .slStart s = .next { s with err := true, cause := 0x06, fcmd := 0x24000000 }) ∧
    (s.sph = .idle → s.w ≠ 0 → s.h ≠ 0 →
      exec .slStart s = .next { s with x := 0, y := 0, sph := .active })

/-- R159: the bytes, the position update and the end of the job, in every state of an active job (`X + 1` and
`Y + 1` cannot wrap where the invariants of R41 hold). -/
def Obligations.SlPixAcceptsAPixel : Prop :=
  (∀ r g bl : Byte, encode (.slPix r g bl) =
    0x25000000 ||| (zext32 r <<< 16) ||| (zext32 g <<< 8) ||| zext32 bl) ∧
  ∀ (r g bl : Byte) (s : State),
    (s.sph = .idle → exec (.slPix r g bl) s = .next { s with
      err := true, cause := 0x02,
      fcmd := 0x25000000 ||| (zext32 r <<< 16) ||| (zext32 g <<< 8) ||| zext32 bl }) ∧
    (s.sph = .active →
      ∃ t, exec (.slPix r g bl) s = .next t ∧
        t = { s with raw := t.raw, x := t.x, y := t.y, sph := t.sph } ∧
        (s.x = 0 → t.raw = s.raw ++ [0x00, r, g, bl]) ∧
        (s.x ≠ 0 → t.raw = s.raw ++ [r, g, bl]) ∧
        (s.x + 1 ≠ s.w → t.x = s.x + 1 ∧ t.y = s.y ∧ t.sph = .active) ∧
        (s.x + 1 = s.w → s.y + 1 ≠ s.h → t.x = 0 ∧ t.y = s.y + 1 ∧ t.sph = .active) ∧
        (s.x + 1 = s.w → s.y + 1 = s.h → t.x = 0 ∧ t.y = s.h ∧ t.sph = .idle))
end

