-- ==== Sys2Proof/Laws/Assembler.lean ====
section
/-! SUPPORT. What the assembler's shared readers can do: the end of an operand, chunk types (30_encoding.md R82) and
string literals (R86). -/

namespace Sys2Proof.Machine

/-! ## The end of an operand -/

@[simp] theorem endsOperand_nil : endsOperand [] = true := rfl

theorem endsOperand_cons (c : Char) (rest : List Char) :
    endsOperand (c :: rest) = if isBlank c then endsOperand rest else (c == ',' || c == ';') := by
  cases h : isBlank c <;> simp [endsOperand, trimLeft, h]

/-- Text that holds neither separator and something beside blanks ends no operand. -/
theorem endsOperand_eq_false {cs : List Char} (hcomma : ',' ∉ cs) (hsemi : ';' ∉ cs)
    (h : ∃ c ∈ cs, isBlank c = false) : endsOperand cs = false := by
  induction cs with
  | nil => simp at h
  | cons c rest ih =>
    simp only [List.mem_cons, not_or] at hcomma hsemi
    rw [endsOperand_cons]
    cases hb : isBlank c with
    | false => simp [Ne.symm hcomma.1, Ne.symm hsemi.1]
    | true =>
      obtain ⟨d, hd, hnb⟩ := h
      rcases List.mem_cons.1 hd with rfl | hd
      · rw [hb] at hnb; cases hnb
      · simpa using ih hcomma.2 hsemi.2 ⟨d, hd, hnb⟩

/-! ## Chunk types -/

/-- R82: any four printable characters are read as a chunk type. -/
theorem typeOperand_literal {c0 c1 c2 c3 : Char} {rest : List Char}
    (h : [c0, c1, c2, c3].all isPrintable = true) (hr : endsOperand rest = true) :
    typeOperand ('"' :: c0 :: c1 :: c2 :: c3 :: '"' :: rest) =
      some (.str [c0.toNat, c1.toNat, c2.toNat, c3.toNat], rest) := by
  simp only [typeOperand, h, hr, beq_self_eq_true, Bool.and_self, if_true, List.map_cons, List.map_nil]

/-- Everything a chunk type can be read from. -/
theorem typeOperand_some {cs : List Char} {op : AsmOperand} {rest : List Char}
    (h : typeOperand cs = some (op, rest)) :
    ∃ c0 c1 c2 c3, cs = '"' :: c0 :: c1 :: c2 :: c3 :: '"' :: rest ∧
      [c0, c1, c2, c3].all isPrintable = true ∧ endsOperand rest = true ∧
      op = .str [c0.toNat, c1.toNat, c2.toNat, c3.toNat] := by
  unfold typeOperand at h
  split at h
  · split at h
    · rename_i hc
      simp only [Bool.and_eq_true, beq_iff_eq] at hc
      simp only [Option.some.injEq, Prod.mk.injEq] at h
      obtain ⟨⟨⟨rfl, rfl⟩, hp⟩, he⟩ := hc
      obtain ⟨rfl, rfl⟩ := h
      exact ⟨_, _, _, _, rfl, hp, he, rfl⟩
    · cases h
  · cases h

/-! ## String literals -/

/-- A string literal runs to its closing quote, if no quote inside it stands where an operand can end. -/
theorem splitOperands_inString (cs piece : List Char) (done : List (List Char))
    (h : ∀ before after, cs = before ++ '"' :: after → endsOperand (after ++ ['"']) = false) :
    splitOperands .inString piece done (cs ++ ['"']) =
      (('"' :: (cs.reverse ++ piece)).reverse :: done).reverse := by
  induction cs generalizing piece with
  | nil => simp [splitOperands]
  | cons c rest ih =>
    have hmode : (c == '"' && endsOperand (rest ++ ['"'])) = false := by
      by_cases hc : c = '"'
      · simp [h [] rest (by rw [hc]; rfl)]
      · simp [hc]
    have := ih (c :: piece) fun before after hs => h (c :: before) after (by rw [hs]; rfl)
    simp [splitOperands, hmode, this]

/-- The codes of a string literal: all of its characters, if each is printable. -/
theorem stringCodes_literal (cs : List Char) :
    stringCodes (cs ++ ['"']) = if cs.all isPrintable then some (cs.map Char.toNat) else none := by
  induction cs with
  | nil => rfl
  | cons c rest ih =>
    cases hp : isPrintable c <;> simp [stringCodes, hp, ih]

/-- Every code a string literal can be read as is printable. -/
theorem stringCodes_printable {cs : List Char} {ns : List Nat} (h : stringCodes cs = some ns) :
    ∀ n ∈ ns, 0x20 ≤ n ∧ n ≤ 0x7E := by
  induction cs generalizing ns with
  | nil => cases h
  | cons c rest ih =>
    unfold stringCodes at h
    split at h
    · split at h <;> cases h
      simp
    · split at h
      · rename_i hp
        obtain ⟨ms, hm, rfl⟩ := Option.map_eq_some_iff.1 h
        intro n hn
        rcases List.mem_cons.1 hn with rfl | hn
        · simpa [isPrintable] using hp
        · exact ih hm n hn
      · cases h

/-- An operand that begins with a quote is a string literal. -/
@[simp] theorem parseOperand_string (cs : List Char) :
    parseOperand ('"' :: cs) = (stringCodes cs).map .str := rfl

/-- Every string an operand can be read as has printable codes. -/
theorem parseOperand_str {cs : List Char} {ns : List Nat} (h : parseOperand cs = some (.str ns)) :
    ∀ n ∈ ns, 0x20 ≤ n ∧ n ≤ 0x7E := by
  unfold parseOperand at h
  split at h
  · split at h <;> cases h
  · obtain ⟨ms, hm, he⟩ := Option.map_eq_some_iff.1 h
    cases he
    exact stringCodes_printable hm
  · obtain ⟨_, _, he⟩ := Option.map_eq_some_iff.1 h
    cases he
  · obtain ⟨_, _, he⟩ := Option.map_eq_some_iff.1 h
    cases he
  · cases h

/-- A string literal has no blanks to trim. -/
theorem trim_literal (cs : List Char) : trim ('"' :: (cs ++ ['"'])) = '"' :: (cs ++ ['"']) := by
  have hb : isBlank '"' = false := by decide
  simp [trim, trimLeft, hb]

/-- The operands of a pseudo-instruction without a chunk type are read like any others. -/
theorem parsePseudoOperands_plain {p : Pseudo} (h : p.takesType = false) (cs : List Char) :
    parsePseudoOperands p cs = parseOperands cs := by
  simp [parsePseudoOperands, h]

end Sys2Proof.Machine
end

