-- ==== Sys2Proof/Laws/Decode.lean ====
section
/-! SUPPORT. The fields of a command word (30_encoding.md R70 to R74): what each field extraction reads from a word
the encoder builds. -/

namespace Sys2Proof

/-- A number below `2 ^ n` has no bit at or above `n`. -/
theorem getLsbD_high {field : Word} {n i : Nat} (h : field.toNat < 2 ^ n) (hi : n ≤ i) :
    field.getLsbD i = false :=
  Nat.testBit_lt_two_pow (Nat.lt_of_lt_of_le h (Nat.pow_le_pow_right (by decide) hi))

/-- An operand of at most 24 bits leaves the opcode's bits clear. -/
theorem zext32_toNat_lt {n : Nat} (v : BitVec n) (hn : n ≤ 24) : (zext32 v).toNat < 2 ^ 24 := by
  have := v.isLt
  have h2 : 2 ^ n ≤ 2 ^ 24 := Nat.pow_le_pow_right (by decide) hn
  exact Nat.lt_of_le_of_lt (by rw [BitVec.toNat_setWidth]; exact Nat.mod_le _ _) (Nat.lt_of_lt_of_le this h2)

theorem rgbField_toNat_lt (r g bl : Byte) : (rgbField r g bl).toNat < 2 ^ 24 := by
  have := r.isLt
  have := g.isLt
  have := bl.isLt
  simp only [rgbField, BitVec.toNat_or, BitVec.toNat_shiftLeft, BitVec.toNat_setWidth]
  rw [Nat.shiftLeft_eq, Nat.shiftLeft_eq]
  refine Nat.or_lt_two_pow (Nat.or_lt_two_pow ?_ ?_) ?_ <;> omega

/-- R70: the opcode of a built word. -/
theorem opcodeOf_commandWord (op : Byte) {field : Word} (h : field.toNat < 2 ^ 24) :
    opcodeOf (commandWord op field) = op := by
  ext i hi
  have hf : field.getLsbD (24 + i) = false := getLsbD_high h (by omega)
  have h1 : 24 + i < 32 := by omega
  simp only [opcodeOf, commandWord, BitVec.getElem_extractLsb', BitVec.getLsbD_or, hf,
    BitVec.getLsbD_shiftLeft, BitVec.getLsbD_setWidth, Bool.or_false]
  simp [h1, BitVec.getLsbD_eq_getElem hi]
  omega

/-- Below the opcode a built word is its operand field. -/
theorem getLsbD_commandWord_low (op : Byte) (field : Word) {i : Nat} (hi : i < 24) :
    (commandWord op field).getLsbD i = field.getLsbD i := by
  simp [commandWord, hi]

@[simp] theorem opcodeOf_commandWord_zero (op : Byte) : opcodeOf (commandWord op 0#32) = op :=
  opcodeOf_commandWord op (by decide)

@[simp] theorem opcodeOf_commandWord_byte (op b : Byte) : opcodeOf (commandWord op (zext32 b)) = op :=
  opcodeOf_commandWord op (zext32_toNat_lt b (by decide))

@[simp] theorem opcodeOf_commandWord_half (op : Byte) (imm : Half) :
    opcodeOf (commandWord op (zext32 imm)) = op :=
  opcodeOf_commandWord op (zext32_toNat_lt imm (by decide))

@[simp] theorem opcodeOf_commandWord_rgb (op r g bl : Byte) :
    opcodeOf (commandWord op (rgbField r g bl)) = op :=
  opcodeOf_commandWord op (rgbField_toNat_lt r g bl)

@[simp] theorem fieldB_commandWord (op b : Byte) : fieldB (commandWord op (zext32 b)) = b := by
  ext i hi
  have h : i < 24 := by omega
  simp [fieldB, getLsbD_commandWord_low op _ h, BitVec.getLsbD_eq_getElem hi]
  omega

@[simp] theorem fieldImm16_commandWord (op : Byte) (imm : Half) :
    fieldImm16 (commandWord op (zext32 imm)) = imm := by
  ext i hi
  have h : i < 24 := by omega
  simp [fieldImm16, getLsbD_commandWord_low op _ h, BitVec.getLsbD_eq_getElem hi]
  omega

@[simp] theorem fieldR_commandWord (op r g bl : Byte) : fieldR (commandWord op (rgbField r g bl)) = r := by
  ext i hi
  have h : 16 + i < 24 := by omega
  have h1 : ¬ 16 + i < 16 := by omega
  have h2 : ¬ 16 + i - 8 < 8 := by omega
  have h3 : 16 + i < 32 := by omega
  have h4 : i < 32 := by omega
  simp [fieldR, getLsbD_commandWord_low op _ h, rgbField, BitVec.getLsbD_eq_getElem hi,
    BitVec.getLsbD_of_ge g (16 + i - 8) (by omega), BitVec.getLsbD_of_ge bl (16 + i) (by omega)]
  simp [h3, h4]


@[simp] theorem fieldG_commandWord (op r g bl : Byte) : fieldG (commandWord op (rgbField r g bl)) = g := by
  ext i hi
  have h : 8 + i < 24 := by omega
  have h1 : 8 + i < 16 := by omega
  have h2 : 8 + i < 32 := by omega
  have h3 : i < 32 := by omega
  simp [fieldG, getLsbD_commandWord_low op _ h, rgbField, h1, BitVec.getLsbD_eq_getElem hi]
  simp [h2, h3]


@[simp] theorem fieldB_commandWord_rgb (op r g bl : Byte) :
    fieldB (commandWord op (rgbField r g bl)) = bl := by
  ext i hi
  have h : i < 24 := by omega
  have h1 : i < 16 := by omega
  simp [fieldB, getLsbD_commandWord_low op _ h, rgbField, h1, hi]
  omega

/-! ## Reserved fields (R71 to R74): the mask test, bit by bit -/

/-- A bit of a contiguous mask `[hi:lo]`. -/
theorem getLsbD_rangeMask (lo len : Nat) {i : Nat} (hi : i < 32) :
    (BitVec.ofNat 32 ((2 ^ len - 1) * 2 ^ lo)).getLsbD i = decide (lo ≤ i ∧ i < lo + len) := by
  rw [BitVec.getLsbD_ofNat, ← Nat.shiftLeft_eq, Nat.testBit_shiftLeft, Nat.testBit_two_pow_sub_one]
  by_cases h1 : lo ≤ i <;> by_cases h2 : i < lo + len <;> simp [hi, h1, h2] <;> omega

/-- The mask test of a field is the field's being zero. -/
theorem and_rangeMask_eq_zero (w : Word) (lo len : Nat) (h : lo + len ≤ 32) :
    w &&& BitVec.ofNat 32 ((2 ^ len - 1) * 2 ^ lo) = 0 ↔ w.extractLsb' lo len = 0 := by
  constructor
  · intro hz
    ext i hi
    have := congrArg (fun v : Word => v.getLsbD (lo + i)) hz
    simp only [BitVec.getLsbD_and, getLsbD_rangeMask lo len (show lo + i < 32 by omega)] at this
    simpa [hi] using this
  · intro hz
    apply BitVec.eq_of_getLsbD_eq
    intro i hi
    rw [BitVec.getLsbD_and, getLsbD_rangeMask lo len hi]
    by_cases hr : lo ≤ i ∧ i < lo + len
    · have := congrArg (fun v : BitVec len => v.getLsbD (i - lo)) hz
      simp only [BitVec.getLsbD_extractLsb'] at this
      have h1 : lo + (i - lo) = i := by omega
      have h2 : i - lo < len := by omega
      simp [h1, h2] at this
      simp [this]
    · simp [hr]

theorem reservedClear_a (w : Word) : Format.a.reservedClear w = true ↔ w.extractLsb' 0 24 = 0 := by
  rw [← and_rangeMask_eq_zero w 0 24 (by decide)]
  simp [Format.reservedClear, Format.reservedMask]

theorem reservedClear_b (w : Word) : Format.b.reservedClear w = true ↔ w.extractLsb' 8 16 = 0 := by
  rw [← and_rangeMask_eq_zero w 8 16 (by decide)]
  simp [Format.reservedClear, Format.reservedMask]

theorem reservedClear_c (w : Word) : Format.c.reservedClear w = true ↔ w.extractLsb' 16 8 = 0 := by
  rw [← and_rangeMask_eq_zero w 16 8 (by decide)]
  simp [Format.reservedClear, Format.reservedMask]

@[simp] theorem reservedClear_d (w : Word) : Format.d.reservedClear w = true := by
  simp [Format.reservedClear, Format.reservedMask]

@[simp] theorem reservedClear_commandWord_zero (op : Byte) :
    Format.a.reservedClear (commandWord op 0#32) = true := by
  rw [reservedClear_a]
  ext i hi
  have h : (commandWord op 0#32).getLsbD i = false := by rw [getLsbD_commandWord_low op _ hi]; simp
  simpa using h

@[simp] theorem reservedClear_commandWord_byte (op b : Byte) :
    Format.b.reservedClear (commandWord op (zext32 b)) = true := by
  rw [reservedClear_b]
  ext i hi
  simp [getLsbD_commandWord_low op _ (show 8 + i < 24 by omega)]

@[simp] theorem reservedClear_commandWord_half (op : Byte) (imm : Half) :
    Format.c.reservedClear (commandWord op (zext32 imm)) = true := by
  rw [reservedClear_c]
  ext i hi
  simp [getLsbD_commandWord_low op _ (show 16 + i < 24 by omega)]

/-- A word is its opcode field and its low 24 bits. -/
theorem eq_commandWord_of_fields {w : Word} {op : Byte} {field : Word} (hop : opcodeOf w = op)
    (hhigh : field.toNat < 2 ^ 24) (hlow : ∀ i, i < 24 → field.getLsbD i = w.getLsbD i) :
    commandWord op field = w := by
  apply BitVec.eq_of_getLsbD_eq
  intro i hi
  by_cases h : i < 24
  · rw [getLsbD_commandWord_low op field h, hlow i h]
  · have hf : field.getLsbD i = false := getLsbD_high hhigh (by omega)
    have h2 : i - 24 < 8 := by omega
    have h3 : 24 + (i - 24) = i := by omega
    subst hop
    simp [commandWord, opcodeOf, h, hi, h2, h3]
    rw [← BitVec.getLsbD_eq_getElem hi, hf]
    simp

/-- R71: a format A word is its opcode. -/
theorem commandWord_a {w : Word} {op : Byte} (hop : opcodeOf w = op) (hr : Format.a.reservedClear w = true) :
    commandWord op 0#32 = w := by
  rw [reservedClear_a] at hr
  refine eq_commandWord_of_fields hop (by decide) fun i hi => ?_
  have hz := congrArg (fun v : BitVec 24 => v.getLsbD i) hr
  simp only [BitVec.getLsbD_extractLsb', hi, decide_true, Bool.true_and, Nat.zero_add] at hz
  rw [hz]
  simp

/-- R72: a format B word is its opcode and its byte. -/
theorem commandWord_b {w : Word} {op : Byte} (hop : opcodeOf w = op) (hr : Format.b.reservedClear w = true) :
    commandWord op (zext32 (fieldB w)) = w := by
  rw [reservedClear_b] at hr
  refine eq_commandWord_of_fields hop (zext32_toNat_lt _ (by decide)) fun i hi => ?_
  have hz := congrArg (fun v : BitVec 16 => v.getLsbD (i - 8)) hr
  by_cases h8 : i < 8
  · have h32 : i < 32 := by omega
    simp [fieldB, h8, h32]
  · have h1 : 8 + (i - 8) = i := by omega
    have h2 : i - 8 < 16 := by omega
    simp [h1, h2] at hz
    simp [fieldB, h8, hz]

/-- R73: a format C word is its opcode and its half-word. -/
theorem commandWord_c {w : Word} {op : Byte} (hop : opcodeOf w = op) (hr : Format.c.reservedClear w = true) :
    commandWord op (zext32 (fieldImm16 w)) = w := by
  rw [reservedClear_c] at hr
  refine eq_commandWord_of_fields hop (zext32_toNat_lt _ (by decide)) fun i hi => ?_
  have hz := congrArg (fun v : BitVec 8 => v.getLsbD (i - 16)) hr
  by_cases h16 : i < 16
  · have h32 : i < 32 := by omega
    simp [fieldImm16, h16, h32]
  · have h1 : 16 + (i - 16) = i := by omega
    have h2 : i - 16 < 8 := by omega
    simp [h1, h2] at hz
    simp [fieldImm16, h16, hz]

/-- R74: a format D word is its opcode and its three channels. -/
theorem commandWord_d {w : Word} {op : Byte} (hop : opcodeOf w = op) :
    commandWord op (rgbField (fieldR w) (fieldG w) (fieldB w)) = w := by
  refine eq_commandWord_of_fields hop (rgbField_toNat_lt _ _ _) fun i hi => ?_
  have h32 : i < 32 := by omega
  by_cases h8 : i < 8
  · have h16 : i < 16 := by omega
    simp [rgbField, fieldB, fieldG, fieldR, h8, h16, h32]
  · by_cases h16 : i < 16
    · have h1 : 8 + (i - 8) = i := by omega
      have h2 : i - 8 < 8 := by omega
      simp [rgbField, fieldB, fieldG, fieldR, h8, h16, h1, h2, h32]
    · have h1 : 16 + (i - 16) = i := by omega
      have h2 : i - 16 < 8 := by omega
      have h3 : ¬ i - 8 < 8 := by omega
      simp [rgbField, fieldB, fieldG, fieldR, h8, h16, h1, h2, h3, h32]

/-! ## The opcode map -/

theorem rowOf_mem (i : Instr) : rowOf i ∈ opcodeMap := by
  cases i <;> simp [rowOf, opcodeMap]

@[simp] theorem rowOf_format (i : Instr) : (rowOf i).format = i.format := by
  cases i <;> rfl

end Sys2Proof
end

