-- ==== Sys2Proof/Laws/State.lean ====
section
/-! SUPPORT. What each field of the state reads after each state operation of `Machine/Ops.lean`: one lemma per
field per update, so that no proof unfolds a record update. -/

namespace Sys2Proof.Machine

/-! ### `State.setCrc` -/

@[simp] theorem State.setCrc_crc (s : State) (v : Word) : (s.setCrc v).crc = v := rfl
@[simp] theorem State.setCrc_res (s : State) (v : Word) : (s.setCrc v).res = s.res := rfl
@[simp] theorem State.setCrc_type (s : State) (v : Word) : (s.setCrc v).type = s.type := rfl
@[simp] theorem State.setCrc_tcnt (s : State) (v : Word) : (s.setCrc v).tcnt = s.tcnt := rfl
@[simp] theorem State.setCrc_len (s : State) (v : Word) : (s.setCrc v).len = s.len := rfl
@[simp] theorem State.setCrc_rem (s : State) (v : Word) : (s.setCrc v).rem = s.rem := rfl
@[simp] theorem State.setCrc_fph (s : State) (v : Word) : (s.setCrc v).fph = s.fph := rfl
@[simp] theorem State.setCrc_w (s : State) (v : Word) : (s.setCrc v).w = s.w := rfl
@[simp] theorem State.setCrc_h (s : State) (v : Word) : (s.setCrc v).h = s.h := rfl
@[simp] theorem State.setCrc_x (s : State) (v : Word) : (s.setCrc v).x = s.x := rfl
@[simp] theorem State.setCrc_y (s : State) (v : Word) : (s.setCrc v).y = s.y := rfl
@[simp] theorem State.setCrc_sph (s : State) (v : Word) : (s.setCrc v).sph = s.sph := rfl
@[simp] theorem State.setCrc_err (s : State) (v : Word) : (s.setCrc v).err = s.err := rfl
@[simp] theorem State.setCrc_cause (s : State) (v : Word) : (s.setCrc v).cause = s.cause := rfl
@[simp] theorem State.setCrc_fcmd (s : State) (v : Word) : (s.setCrc v).fcmd = s.fcmd := rfl
@[simp] theorem State.setCrc_out (s : State) (v : Word) : (s.setCrc v).out = s.out := rfl
@[simp] theorem State.setCrc_raw (s : State) (v : Word) : (s.setCrc v).raw = s.raw := rfl
@[simp] theorem State.setCrc_pending (s : State) (v : Word) : (s.setCrc v).pending = s.pending := rfl
@[simp] theorem State.setCrc_rdData (s : State) (v : Word) : (s.setCrc v).rdData = s.rdData := rfl

/-! ### `State.setRes` -/

@[simp] theorem State.setRes_crc (s : State) (v : Word) : (s.setRes v).crc = s.crc := rfl
@[simp] theorem State.setRes_res (s : State) (v : Word) : (s.setRes v).res = v := rfl
@[simp] theorem State.setRes_type (s : State) (v : Word) : (s.setRes v).type = s.type := rfl
@[simp] theorem State.setRes_tcnt (s : State) (v : Word) : (s.setRes v).tcnt = s.tcnt := rfl
@[simp] theorem State.setRes_len (s : State) (v : Word) : (s.setRes v).len = s.len := rfl
@[simp] theorem State.setRes_rem (s : State) (v : Word) : (s.setRes v).rem = s.rem := rfl
@[simp] theorem State.setRes_fph (s : State) (v : Word) : (s.setRes v).fph = s.fph := rfl
@[simp] theorem State.setRes_w (s : State) (v : Word) : (s.setRes v).w = s.w := rfl
@[simp] theorem State.setRes_h (s : State) (v : Word) : (s.setRes v).h = s.h := rfl
@[simp] theorem State.setRes_x (s : State) (v : Word) : (s.setRes v).x = s.x := rfl
@[simp] theorem State.setRes_y (s : State) (v : Word) : (s.setRes v).y = s.y := rfl
@[simp] theorem State.setRes_sph (s : State) (v : Word) : (s.setRes v).sph = s.sph := rfl
@[simp] theorem State.setRes_err (s : State) (v : Word) : (s.setRes v).err = s.err := rfl
@[simp] theorem State.setRes_cause (s : State) (v : Word) : (s.setRes v).cause = s.cause := rfl
@[simp] theorem State.setRes_fcmd (s : State) (v : Word) : (s.setRes v).fcmd = s.fcmd := rfl
@[simp] theorem State.setRes_out (s : State) (v : Word) : (s.setRes v).out = s.out := rfl
@[simp] theorem State.setRes_raw (s : State) (v : Word) : (s.setRes v).raw = s.raw := rfl
@[simp] theorem State.setRes_pending (s : State) (v : Word) : (s.setRes v).pending = s.pending := rfl
@[simp] theorem State.setRes_rdData (s : State) (v : Word) : (s.setRes v).rdData = s.rdData := rfl

/-! ### `State.setType` -/

@[simp] theorem State.setType_crc (s : State) (v : Word) : (s.setType v).crc = s.crc := rfl
@[simp] theorem State.setType_res (s : State) (v : Word) : (s.setType v).res = s.res := rfl
@[simp] theorem State.setType_type (s : State) (v : Word) : (s.setType v).type = v := rfl
@[simp] theorem State.setType_tcnt (s : State) (v : Word) : (s.setType v).tcnt = s.tcnt := rfl
@[simp] theorem State.setType_len (s : State) (v : Word) : (s.setType v).len = s.len := rfl
@[simp] theorem State.setType_rem (s : State) (v : Word) : (s.setType v).rem = s.rem := rfl
@[simp] theorem State.setType_fph (s : State) (v : Word) : (s.setType v).fph = s.fph := rfl
@[simp] theorem State.setType_w (s : State) (v : Word) : (s.setType v).w = s.w := rfl
@[simp] theorem State.setType_h (s : State) (v : Word) : (s.setType v).h = s.h := rfl
@[simp] theorem State.setType_x (s : State) (v : Word) : (s.setType v).x = s.x := rfl
@[simp] theorem State.setType_y (s : State) (v : Word) : (s.setType v).y = s.y := rfl
@[simp] theorem State.setType_sph (s : State) (v : Word) : (s.setType v).sph = s.sph := rfl
@[simp] theorem State.setType_err (s : State) (v : Word) : (s.setType v).err = s.err := rfl
@[simp] theorem State.setType_cause (s : State) (v : Word) : (s.setType v).cause = s.cause := rfl
@[simp] theorem State.setType_fcmd (s : State) (v : Word) : (s.setType v).fcmd = s.fcmd := rfl
@[simp] theorem State.setType_out (s : State) (v : Word) : (s.setType v).out = s.out := rfl
@[simp] theorem State.setType_raw (s : State) (v : Word) : (s.setType v).raw = s.raw := rfl
@[simp] theorem State.setType_pending (s : State) (v : Word) : (s.setType v).pending = s.pending := rfl
@[simp] theorem State.setType_rdData (s : State) (v : Word) : (s.setType v).rdData = s.rdData := rfl

/-! ### `State.setTcnt` -/

@[simp] theorem State.setTcnt_crc (s : State) (v : BitVec 3) : (s.setTcnt v).crc = s.crc := rfl
@[simp] theorem State.setTcnt_res (s : State) (v : BitVec 3) : (s.setTcnt v).res = s.res := rfl
@[simp] theorem State.setTcnt_type (s : State) (v : BitVec 3) : (s.setTcnt v).type = s.type := rfl
@[simp] theorem State.setTcnt_tcnt (s : State) (v : BitVec 3) : (s.setTcnt v).tcnt = v := rfl
@[simp] theorem State.setTcnt_len (s : State) (v : BitVec 3) : (s.setTcnt v).len = s.len := rfl
@[simp] theorem State.setTcnt_rem (s : State) (v : BitVec 3) : (s.setTcnt v).rem = s.rem := rfl
@[simp] theorem State.setTcnt_fph (s : State) (v : BitVec 3) : (s.setTcnt v).fph = s.fph := rfl
@[simp] theorem State.setTcnt_w (s : State) (v : BitVec 3) : (s.setTcnt v).w = s.w := rfl
@[simp] theorem State.setTcnt_h (s : State) (v : BitVec 3) : (s.setTcnt v).h = s.h := rfl
@[simp] theorem State.setTcnt_x (s : State) (v : BitVec 3) : (s.setTcnt v).x = s.x := rfl
@[simp] theorem State.setTcnt_y (s : State) (v : BitVec 3) : (s.setTcnt v).y = s.y := rfl
@[simp] theorem State.setTcnt_sph (s : State) (v : BitVec 3) : (s.setTcnt v).sph = s.sph := rfl
@[simp] theorem State.setTcnt_err (s : State) (v : BitVec 3) : (s.setTcnt v).err = s.err := rfl
@[simp] theorem State.setTcnt_cause (s : State) (v : BitVec 3) : (s.setTcnt v).cause = s.cause := rfl
@[simp] theorem State.setTcnt_fcmd (s : State) (v : BitVec 3) : (s.setTcnt v).fcmd = s.fcmd := rfl
@[simp] theorem State.setTcnt_out (s : State) (v : BitVec 3) : (s.setTcnt v).out = s.out := rfl
@[simp] theorem State.setTcnt_raw (s : State) (v : BitVec 3) : (s.setTcnt v).raw = s.raw := rfl
@[simp] theorem State.setTcnt_pending (s : State) (v : BitVec 3) : (s.setTcnt v).pending = s.pending := rfl
@[simp] theorem State.setTcnt_rdData (s : State) (v : BitVec 3) : (s.setTcnt v).rdData = s.rdData := rfl

/-! ### `State.setLen` -/

@[simp] theorem State.setLen_crc (s : State) (v : Word) : (s.setLen v).crc = s.crc := rfl
@[simp] theorem State.setLen_res (s : State) (v : Word) : (s.setLen v).res = s.res := rfl
@[simp] theorem State.setLen_type (s : State) (v : Word) : (s.setLen v).type = s.type := rfl
@[simp] theorem State.setLen_tcnt (s : State) (v : Word) : (s.setLen v).tcnt = s.tcnt := rfl
@[simp] theorem State.setLen_len (s : State) (v : Word) : (s.setLen v).len = v := rfl
@[simp] theorem State.setLen_rem (s : State) (v : Word) : (s.setLen v).rem = s.rem := rfl
@[simp] theorem State.setLen_fph (s : State) (v : Word) : (s.setLen v).fph = s.fph := rfl
@[simp] theorem State.setLen_w (s : State) (v : Word) : (s.setLen v).w = s.w := rfl
@[simp] theorem State.setLen_h (s : State) (v : Word) : (s.setLen v).h = s.h := rfl
@[simp] theorem State.setLen_x (s : State) (v : Word) : (s.setLen v).x = s.x := rfl
@[simp] theorem State.setLen_y (s : State) (v : Word) : (s.setLen v).y = s.y := rfl
@[simp] theorem State.setLen_sph (s : State) (v : Word) : (s.setLen v).sph = s.sph := rfl
@[simp] theorem State.setLen_err (s : State) (v : Word) : (s.setLen v).err = s.err := rfl
@[simp] theorem State.setLen_cause (s : State) (v : Word) : (s.setLen v).cause = s.cause := rfl
@[simp] theorem State.setLen_fcmd (s : State) (v : Word) : (s.setLen v).fcmd = s.fcmd := rfl
@[simp] theorem State.setLen_out (s : State) (v : Word) : (s.setLen v).out = s.out := rfl
@[simp] theorem State.setLen_raw (s : State) (v : Word) : (s.setLen v).raw = s.raw := rfl
@[simp] theorem State.setLen_pending (s : State) (v : Word) : (s.setLen v).pending = s.pending := rfl
@[simp] theorem State.setLen_rdData (s : State) (v : Word) : (s.setLen v).rdData = s.rdData := rfl

/-! ### `State.setRem` -/

@[simp] theorem State.setRem_crc (s : State) (v : Word) : (s.setRem v).crc = s.crc := rfl
@[simp] theorem State.setRem_res (s : State) (v : Word) : (s.setRem v).res = s.res := rfl
@[simp] theorem State.setRem_type (s : State) (v : Word) : (s.setRem v).type = s.type := rfl
@[simp] theorem State.setRem_tcnt (s : State) (v : Word) : (s.setRem v).tcnt = s.tcnt := rfl
@[simp] theorem State.setRem_len (s : State) (v : Word) : (s.setRem v).len = s.len := rfl
@[simp] theorem State.setRem_rem (s : State) (v : Word) : (s.setRem v).rem = v := rfl
@[simp] theorem State.setRem_fph (s : State) (v : Word) : (s.setRem v).fph = s.fph := rfl
@[simp] theorem State.setRem_w (s : State) (v : Word) : (s.setRem v).w = s.w := rfl
@[simp] theorem State.setRem_h (s : State) (v : Word) : (s.setRem v).h = s.h := rfl
@[simp] theorem State.setRem_x (s : State) (v : Word) : (s.setRem v).x = s.x := rfl
@[simp] theorem State.setRem_y (s : State) (v : Word) : (s.setRem v).y = s.y := rfl
@[simp] theorem State.setRem_sph (s : State) (v : Word) : (s.setRem v).sph = s.sph := rfl
@[simp] theorem State.setRem_err (s : State) (v : Word) : (s.setRem v).err = s.err := rfl
@[simp] theorem State.setRem_cause (s : State) (v : Word) : (s.setRem v).cause = s.cause := rfl
@[simp] theorem State.setRem_fcmd (s : State) (v : Word) : (s.setRem v).fcmd = s.fcmd := rfl
@[simp] theorem State.setRem_out (s : State) (v : Word) : (s.setRem v).out = s.out := rfl
@[simp] theorem State.setRem_raw (s : State) (v : Word) : (s.setRem v).raw = s.raw := rfl
@[simp] theorem State.setRem_pending (s : State) (v : Word) : (s.setRem v).pending = s.pending := rfl
@[simp] theorem State.setRem_rdData (s : State) (v : Word) : (s.setRem v).rdData = s.rdData := rfl

/-! ### `State.setFph` -/

@[simp] theorem State.setFph_crc (s : State) (v : FramerPhase) : (s.setFph v).crc = s.crc := rfl
@[simp] theorem State.setFph_res (s : State) (v : FramerPhase) : (s.setFph v).res = s.res := rfl
@[simp] theorem State.setFph_type (s : State) (v : FramerPhase) : (s.setFph v).type = s.type := rfl
@[simp] theorem State.setFph_tcnt (s : State) (v : FramerPhase) : (s.setFph v).tcnt = s.tcnt := rfl
@[simp] theorem State.setFph_len (s : State) (v : FramerPhase) : (s.setFph v).len = s.len := rfl
@[simp] theorem State.setFph_rem (s : State) (v : FramerPhase) : (s.setFph v).rem = s.rem := rfl
@[simp] theorem State.setFph_fph (s : State) (v : FramerPhase) : (s.setFph v).fph = v := rfl
@[simp] theorem State.setFph_w (s : State) (v : FramerPhase) : (s.setFph v).w = s.w := rfl
@[simp] theorem State.setFph_h (s : State) (v : FramerPhase) : (s.setFph v).h = s.h := rfl
@[simp] theorem State.setFph_x (s : State) (v : FramerPhase) : (s.setFph v).x = s.x := rfl
@[simp] theorem State.setFph_y (s : State) (v : FramerPhase) : (s.setFph v).y = s.y := rfl
@[simp] theorem State.setFph_sph (s : State) (v : FramerPhase) : (s.setFph v).sph = s.sph := rfl
@[simp] theorem State.setFph_err (s : State) (v : FramerPhase) : (s.setFph v).err = s.err := rfl
@[simp] theorem State.setFph_cause (s : State) (v : FramerPhase) : (s.setFph v).cause = s.cause := rfl
@[simp] theorem State.setFph_fcmd (s : State) (v : FramerPhase) : (s.setFph v).fcmd = s.fcmd := rfl
@[simp] theorem State.setFph_out (s : State) (v : FramerPhase) : (s.setFph v).out = s.out := rfl
@[simp] theorem State.setFph_raw (s : State) (v : FramerPhase) : (s.setFph v).raw = s.raw := rfl
@[simp] theorem State.setFph_pending (s : State) (v : FramerPhase) : (s.setFph v).pending = s.pending := rfl
@[simp] theorem State.setFph_rdData (s : State) (v : FramerPhase) : (s.setFph v).rdData = s.rdData := rfl

/-! ### `State.setW` -/

@[simp] theorem State.setW_crc (s : State) (v : Word) : (s.setW v).crc = s.crc := rfl
@[simp] theorem State.setW_res (s : State) (v : Word) : (s.setW v).res = s.res := rfl
@[simp] theorem State.setW_type (s : State) (v : Word) : (s.setW v).type = s.type := rfl
@[simp] theorem State.setW_tcnt (s : State) (v : Word) : (s.setW v).tcnt = s.tcnt := rfl
@[simp] theorem State.setW_len (s : State) (v : Word) : (s.setW v).len = s.len := rfl
@[simp] theorem State.setW_rem (s : State) (v : Word) : (s.setW v).rem = s.rem := rfl
@[simp] theorem State.setW_fph (s : State) (v : Word) : (s.setW v).fph = s.fph := rfl
@[simp] theorem State.setW_w (s : State) (v : Word) : (s.setW v).w = v := rfl
@[simp] theorem State.setW_h (s : State) (v : Word) : (s.setW v).h = s.h := rfl
@[simp] theorem State.setW_x (s : State) (v : Word) : (s.setW v).x = s.x := rfl
@[simp] theorem State.setW_y (s : State) (v : Word) : (s.setW v).y = s.y := rfl
@[simp] theorem State.setW_sph (s : State) (v : Word) : (s.setW v).sph = s.sph := rfl
@[simp] theorem State.setW_err (s : State) (v : Word) : (s.setW v).err = s.err := rfl
@[simp] theorem State.setW_cause (s : State) (v : Word) : (s.setW v).cause = s.cause := rfl
@[simp] theorem State.setW_fcmd (s : State) (v : Word) : (s.setW v).fcmd = s.fcmd := rfl
@[simp] theorem State.setW_out (s : State) (v : Word) : (s.setW v).out = s.out := rfl
@[simp] theorem State.setW_raw (s : State) (v : Word) : (s.setW v).raw = s.raw := rfl
@[simp] theorem State.setW_pending (s : State) (v : Word) : (s.setW v).pending = s.pending := rfl
@[simp] theorem State.setW_rdData (s : State) (v : Word) : (s.setW v).rdData = s.rdData := rfl

/-! ### `State.setH` -/

@[simp] theorem State.setH_crc (s : State) (v : Word) : (s.setH v).crc = s.crc := rfl
@[simp] theorem State.setH_res (s : State) (v : Word) : (s.setH v).res = s.res := rfl
@[simp] theorem State.setH_type (s : State) (v : Word) : (s.setH v).type = s.type := rfl
@[simp] theorem State.setH_tcnt (s : State) (v : Word) : (s.setH v).tcnt = s.tcnt := rfl
@[simp] theorem State.setH_len (s : State) (v : Word) : (s.setH v).len = s.len := rfl
@[simp] theorem State.setH_rem (s : State) (v : Word) : (s.setH v).rem = s.rem := rfl
@[simp] theorem State.setH_fph (s : State) (v : Word) : (s.setH v).fph = s.fph := rfl
@[simp] theorem State.setH_w (s : State) (v : Word) : (s.setH v).w = s.w := rfl
@[simp] theorem State.setH_h (s : State) (v : Word) : (s.setH v).h = v := rfl
@[simp] theorem State.setH_x (s : State) (v : Word) : (s.setH v).x = s.x := rfl
@[simp] theorem State.setH_y (s : State) (v : Word) : (s.setH v).y = s.y := rfl
@[simp] theorem State.setH_sph (s : State) (v : Word) : (s.setH v).sph = s.sph := rfl
@[simp] theorem State.setH_err (s : State) (v : Word) : (s.setH v).err = s.err := rfl
@[simp] theorem State.setH_cause (s : State) (v : Word) : (s.setH v).cause = s.cause := rfl
@[simp] theorem State.setH_fcmd (s : State) (v : Word) : (s.setH v).fcmd = s.fcmd := rfl
@[simp] theorem State.setH_out (s : State) (v : Word) : (s.setH v).out = s.out := rfl
@[simp] theorem State.setH_raw (s : State) (v : Word) : (s.setH v).raw = s.raw := rfl
@[simp] theorem State.setH_pending (s : State) (v : Word) : (s.setH v).pending = s.pending := rfl
@[simp] theorem State.setH_rdData (s : State) (v : Word) : (s.setH v).rdData = s.rdData := rfl

/-! ### `State.setX` -/

@[simp] theorem State.setX_crc (s : State) (v : Word) : (s.setX v).crc = s.crc := rfl
@[simp] theorem State.setX_res (s : State) (v : Word) : (s.setX v).res = s.res := rfl
@[simp] theorem State.setX_type (s : State) (v : Word) : (s.setX v).type = s.type := rfl
@[simp] theorem State.setX_tcnt (s : State) (v : Word) : (s.setX v).tcnt = s.tcnt := rfl
@[simp] theorem State.setX_len (s : State) (v : Word) : (s.setX v).len = s.len := rfl
@[simp] theorem State.setX_rem (s : State) (v : Word) : (s.setX v).rem = s.rem := rfl
@[simp] theorem State.setX_fph (s : State) (v : Word) : (s.setX v).fph = s.fph := rfl
@[simp] theorem State.setX_w (s : State) (v : Word) : (s.setX v).w = s.w := rfl
@[simp] theorem State.setX_h (s : State) (v : Word) : (s.setX v).h = s.h := rfl
@[simp] theorem State.setX_x (s : State) (v : Word) : (s.setX v).x = v := rfl
@[simp] theorem State.setX_y (s : State) (v : Word) : (s.setX v).y = s.y := rfl
@[simp] theorem State.setX_sph (s : State) (v : Word) : (s.setX v).sph = s.sph := rfl
@[simp] theorem State.setX_err (s : State) (v : Word) : (s.setX v).err = s.err := rfl
@[simp] theorem State.setX_cause (s : State) (v : Word) : (s.setX v).cause = s.cause := rfl
@[simp] theorem State.setX_fcmd (s : State) (v : Word) : (s.setX v).fcmd = s.fcmd := rfl
@[simp] theorem State.setX_out (s : State) (v : Word) : (s.setX v).out = s.out := rfl
@[simp] theorem State.setX_raw (s : State) (v : Word) : (s.setX v).raw = s.raw := rfl
@[simp] theorem State.setX_pending (s : State) (v : Word) : (s.setX v).pending = s.pending := rfl
@[simp] theorem State.setX_rdData (s : State) (v : Word) : (s.setX v).rdData = s.rdData := rfl

/-! ### `State.setY` -/

@[simp] theorem State.setY_crc (s : State) (v : Word) : (s.setY v).crc = s.crc := rfl
@[simp] theorem State.setY_res (s : State) (v : Word) : (s.setY v).res = s.res := rfl
@[simp] theorem State.setY_type (s : State) (v : Word) : (s.setY v).type = s.type := rfl
@[simp] theorem State.setY_tcnt (s : State) (v : Word) : (s.setY v).tcnt = s.tcnt := rfl
@[simp] theorem State.setY_len (s : State) (v : Word) : (s.setY v).len = s.len := rfl
@[simp] theorem State.setY_rem (s : State) (v : Word) : (s.setY v).rem = s.rem := rfl
@[simp] theorem State.setY_fph (s : State) (v : Word) : (s.setY v).fph = s.fph := rfl
@[simp] theorem State.setY_w (s : State) (v : Word) : (s.setY v).w = s.w := rfl
@[simp] theorem State.setY_h (s : State) (v : Word) : (s.setY v).h = s.h := rfl
@[simp] theorem State.setY_x (s : State) (v : Word) : (s.setY v).x = s.x := rfl
@[simp] theorem State.setY_y (s : State) (v : Word) : (s.setY v).y = v := rfl
@[simp] theorem State.setY_sph (s : State) (v : Word) : (s.setY v).sph = s.sph := rfl
@[simp] theorem State.setY_err (s : State) (v : Word) : (s.setY v).err = s.err := rfl
@[simp] theorem State.setY_cause (s : State) (v : Word) : (s.setY v).cause = s.cause := rfl
@[simp] theorem State.setY_fcmd (s : State) (v : Word) : (s.setY v).fcmd = s.fcmd := rfl
@[simp] theorem State.setY_out (s : State) (v : Word) : (s.setY v).out = s.out := rfl
@[simp] theorem State.setY_raw (s : State) (v : Word) : (s.setY v).raw = s.raw := rfl
@[simp] theorem State.setY_pending (s : State) (v : Word) : (s.setY v).pending = s.pending := rfl
@[simp] theorem State.setY_rdData (s : State) (v : Word) : (s.setY v).rdData = s.rdData := rfl

/-! ### `State.setSph` -/

@[simp] theorem State.setSph_crc (s : State) (v : PrependerPhase) : (s.setSph v).crc = s.crc := rfl
@[simp] theorem State.setSph_res (s : State) (v : PrependerPhase) : (s.setSph v).res = s.res := rfl
@[simp] theorem State.setSph_type (s : State) (v : PrependerPhase) : (s.setSph v).type = s.type := rfl
@[simp] theorem State.setSph_tcnt (s : State) (v : PrependerPhase) : (s.setSph v).tcnt = s.tcnt := rfl
@[simp] theorem State.setSph_len (s : State) (v : PrependerPhase) : (s.setSph v).len = s.len := rfl
@[simp] theorem State.setSph_rem (s : State) (v : PrependerPhase) : (s.setSph v).rem = s.rem := rfl
@[simp] theorem State.setSph_fph (s : State) (v : PrependerPhase) : (s.setSph v).fph = s.fph := rfl
@[simp] theorem State.setSph_w (s : State) (v : PrependerPhase) : (s.setSph v).w = s.w := rfl
@[simp] theorem State.setSph_h (s : State) (v : PrependerPhase) : (s.setSph v).h = s.h := rfl
@[simp] theorem State.setSph_x (s : State) (v : PrependerPhase) : (s.setSph v).x = s.x := rfl
@[simp] theorem State.setSph_y (s : State) (v : PrependerPhase) : (s.setSph v).y = s.y := rfl
@[simp] theorem State.setSph_sph (s : State) (v : PrependerPhase) : (s.setSph v).sph = v := rfl
@[simp] theorem State.setSph_err (s : State) (v : PrependerPhase) : (s.setSph v).err = s.err := rfl
@[simp] theorem State.setSph_cause (s : State) (v : PrependerPhase) : (s.setSph v).cause = s.cause := rfl
@[simp] theorem State.setSph_fcmd (s : State) (v : PrependerPhase) : (s.setSph v).fcmd = s.fcmd := rfl
@[simp] theorem State.setSph_out (s : State) (v : PrependerPhase) : (s.setSph v).out = s.out := rfl
@[simp] theorem State.setSph_raw (s : State) (v : PrependerPhase) : (s.setSph v).raw = s.raw := rfl
@[simp] theorem State.setSph_pending (s : State) (v : PrependerPhase) : (s.setSph v).pending = s.pending := rfl
@[simp] theorem State.setSph_rdData (s : State) (v : PrependerPhase) : (s.setSph v).rdData = s.rdData := rfl

/-! ### `State.setPending` -/

@[simp] theorem State.setPending_crc (s : State) (v : List HostAction) : (s.setPending v).crc = s.crc := rfl
@[simp] theorem State.setPending_res (s : State) (v : List HostAction) : (s.setPending v).res = s.res := rfl
@[simp] theorem State.setPending_type (s : State) (v : List HostAction) : (s.setPending v).type = s.type := rfl
@[simp] theorem State.setPending_tcnt (s : State) (v : List HostAction) : (s.setPending v).tcnt = s.tcnt := rfl
@[simp] theorem State.setPending_len (s : State) (v : List HostAction) : (s.setPending v).len = s.len := rfl
@[simp] theorem State.setPending_rem (s : State) (v : List HostAction) : (s.setPending v).rem = s.rem := rfl
@[simp] theorem State.setPending_fph (s : State) (v : List HostAction) : (s.setPending v).fph = s.fph := rfl
@[simp] theorem State.setPending_w (s : State) (v : List HostAction) : (s.setPending v).w = s.w := rfl
@[simp] theorem State.setPending_h (s : State) (v : List HostAction) : (s.setPending v).h = s.h := rfl
@[simp] theorem State.setPending_x (s : State) (v : List HostAction) : (s.setPending v).x = s.x := rfl
@[simp] theorem State.setPending_y (s : State) (v : List HostAction) : (s.setPending v).y = s.y := rfl
@[simp] theorem State.setPending_sph (s : State) (v : List HostAction) : (s.setPending v).sph = s.sph := rfl
@[simp] theorem State.setPending_err (s : State) (v : List HostAction) : (s.setPending v).err = s.err := rfl
@[simp] theorem State.setPending_cause (s : State) (v : List HostAction) : (s.setPending v).cause = s.cause := rfl
@[simp] theorem State.setPending_fcmd (s : State) (v : List HostAction) : (s.setPending v).fcmd = s.fcmd := rfl
@[simp] theorem State.setPending_out (s : State) (v : List HostAction) : (s.setPending v).out = s.out := rfl
@[simp] theorem State.setPending_raw (s : State) (v : List HostAction) : (s.setPending v).raw = s.raw := rfl
@[simp] theorem State.setPending_pending (s : State) (v : List HostAction) : (s.setPending v).pending = v := rfl
@[simp] theorem State.setPending_rdData (s : State) (v : List HostAction) : (s.setPending v).rdData = s.rdData := rfl

/-! ### `State.emitOut` -/

@[simp] theorem State.emitOut_crc (s : State) (v : List Byte) : (s.emitOut v).crc = s.crc := rfl
@[simp] theorem State.emitOut_res (s : State) (v : List Byte) : (s.emitOut v).res = s.res := rfl
@[simp] theorem State.emitOut_type (s : State) (v : List Byte) : (s.emitOut v).type = s.type := rfl
@[simp] theorem State.emitOut_tcnt (s : State) (v : List Byte) : (s.emitOut v).tcnt = s.tcnt := rfl
@[simp] theorem State.emitOut_len (s : State) (v : List Byte) : (s.emitOut v).len = s.len := rfl
@[simp] theorem State.emitOut_rem (s : State) (v : List Byte) : (s.emitOut v).rem = s.rem := rfl
@[simp] theorem State.emitOut_fph (s : State) (v : List Byte) : (s.emitOut v).fph = s.fph := rfl
@[simp] theorem State.emitOut_w (s : State) (v : List Byte) : (s.emitOut v).w = s.w := rfl
@[simp] theorem State.emitOut_h (s : State) (v : List Byte) : (s.emitOut v).h = s.h := rfl
@[simp] theorem State.emitOut_x (s : State) (v : List Byte) : (s.emitOut v).x = s.x := rfl
@[simp] theorem State.emitOut_y (s : State) (v : List Byte) : (s.emitOut v).y = s.y := rfl
@[simp] theorem State.emitOut_sph (s : State) (v : List Byte) : (s.emitOut v).sph = s.sph := rfl
@[simp] theorem State.emitOut_err (s : State) (v : List Byte) : (s.emitOut v).err = s.err := rfl
@[simp] theorem State.emitOut_cause (s : State) (v : List Byte) : (s.emitOut v).cause = s.cause := rfl
@[simp] theorem State.emitOut_fcmd (s : State) (v : List Byte) : (s.emitOut v).fcmd = s.fcmd := rfl
@[simp] theorem State.emitOut_out (s : State) (v : List Byte) : (s.emitOut v).out = s.out ++ v := rfl
@[simp] theorem State.emitOut_raw (s : State) (v : List Byte) : (s.emitOut v).raw = s.raw := rfl
@[simp] theorem State.emitOut_pending (s : State) (v : List Byte) : (s.emitOut v).pending = s.pending := rfl
@[simp] theorem State.emitOut_rdData (s : State) (v : List Byte) : (s.emitOut v).rdData = s.rdData := rfl

/-! ### `State.emitRaw` -/

@[simp] theorem State.emitRaw_crc (s : State) (v : List Byte) : (s.emitRaw v).crc = s.crc := rfl
@[simp] theorem State.emitRaw_res (s : State) (v : List Byte) : (s.emitRaw v).res = s.res := rfl
@[simp] theorem State.emitRaw_type (s : State) (v : List Byte) : (s.emitRaw v).type = s.type := rfl
@[simp] theorem State.emitRaw_tcnt (s : State) (v : List Byte) : (s.emitRaw v).tcnt = s.tcnt := rfl
@[simp] theorem State.emitRaw_len (s : State) (v : List Byte) : (s.emitRaw v).len = s.len := rfl
@[simp] theorem State.emitRaw_rem (s : State) (v : List Byte) : (s.emitRaw v).rem = s.rem := rfl
@[simp] theorem State.emitRaw_fph (s : State) (v : List Byte) : (s.emitRaw v).fph = s.fph := rfl
@[simp] theorem State.emitRaw_w (s : State) (v : List Byte) : (s.emitRaw v).w = s.w := rfl
@[simp] theorem State.emitRaw_h (s : State) (v : List Byte) : (s.emitRaw v).h = s.h := rfl
@[simp] theorem State.emitRaw_x (s : State) (v : List Byte) : (s.emitRaw v).x = s.x := rfl
@[simp] theorem State.emitRaw_y (s : State) (v : List Byte) : (s.emitRaw v).y = s.y := rfl
@[simp] theorem State.emitRaw_sph (s : State) (v : List Byte) : (s.emitRaw v).sph = s.sph := rfl
@[simp] theorem State.emitRaw_err (s : State) (v : List Byte) : (s.emitRaw v).err = s.err := rfl
@[simp] theorem State.emitRaw_cause (s : State) (v : List Byte) : (s.emitRaw v).cause = s.cause := rfl
@[simp] theorem State.emitRaw_fcmd (s : State) (v : List Byte) : (s.emitRaw v).fcmd = s.fcmd := rfl
@[simp] theorem State.emitRaw_out (s : State) (v : List Byte) : (s.emitRaw v).out = s.out := rfl
@[simp] theorem State.emitRaw_raw (s : State) (v : List Byte) : (s.emitRaw v).raw = s.raw ++ v := rfl
@[simp] theorem State.emitRaw_pending (s : State) (v : List Byte) : (s.emitRaw v).pending = s.pending := rfl
@[simp] theorem State.emitRaw_rdData (s : State) (v : List Byte) : (s.emitRaw v).rdData = s.rdData := rfl

/-! ### `State.answerRead` -/

@[simp] theorem State.answerRead_crc (s : State) (v : Word) : (s.answerRead v).crc = s.crc := rfl
@[simp] theorem State.answerRead_res (s : State) (v : Word) : (s.answerRead v).res = s.res := rfl
@[simp] theorem State.answerRead_type (s : State) (v : Word) : (s.answerRead v).type = s.type := rfl
@[simp] theorem State.answerRead_tcnt (s : State) (v : Word) : (s.answerRead v).tcnt = s.tcnt := rfl
@[simp] theorem State.answerRead_len (s : State) (v : Word) : (s.answerRead v).len = s.len := rfl
@[simp] theorem State.answerRead_rem (s : State) (v : Word) : (s.answerRead v).rem = s.rem := rfl
@[simp] theorem State.answerRead_fph (s : State) (v : Word) : (s.answerRead v).fph = s.fph := rfl
@[simp] theorem State.answerRead_w (s : State) (v : Word) : (s.answerRead v).w = s.w := rfl
@[simp] theorem State.answerRead_h (s : State) (v : Word) : (s.answerRead v).h = s.h := rfl
@[simp] theorem State.answerRead_x (s : State) (v : Word) : (s.answerRead v).x = s.x := rfl
@[simp] theorem State.answerRead_y (s : State) (v : Word) : (s.answerRead v).y = s.y := rfl
@[simp] theorem State.answerRead_sph (s : State) (v : Word) : (s.answerRead v).sph = s.sph := rfl
@[simp] theorem State.answerRead_err (s : State) (v : Word) : (s.answerRead v).err = s.err := rfl
@[simp] theorem State.answerRead_cause (s : State) (v : Word) : (s.answerRead v).cause = s.cause := rfl
@[simp] theorem State.answerRead_fcmd (s : State) (v : Word) : (s.answerRead v).fcmd = s.fcmd := rfl
@[simp] theorem State.answerRead_out (s : State) (v : Word) : (s.answerRead v).out = s.out := rfl
@[simp] theorem State.answerRead_raw (s : State) (v : Word) : (s.answerRead v).raw = s.raw := rfl
@[simp] theorem State.answerRead_pending (s : State) (v : Word) : (s.answerRead v).pending = s.pending := rfl
@[simp] theorem State.answerRead_rdData (s : State) (v : Word) : (s.answerRead v).rdData = s.rdData ++ [v] := rfl

/-! ### `faultEntry` (R204) -/

@[simp] theorem faultEntry_crc (c : Cause) (word : Word) (s : State) : (faultEntry c word s).crc = s.crc := rfl
@[simp] theorem faultEntry_res (c : Cause) (word : Word) (s : State) : (faultEntry c word s).res = s.res := rfl
@[simp] theorem faultEntry_type (c : Cause) (word : Word) (s : State) : (faultEntry c word s).type = s.type := rfl
@[simp] theorem faultEntry_tcnt (c : Cause) (word : Word) (s : State) : (faultEntry c word s).tcnt = s.tcnt := rfl
@[simp] theorem faultEntry_len (c : Cause) (word : Word) (s : State) : (faultEntry c word s).len = s.len := rfl
@[simp] theorem faultEntry_rem (c : Cause) (word : Word) (s : State) : (faultEntry c word s).rem = s.rem := rfl
@[simp] theorem faultEntry_fph (c : Cause) (word : Word) (s : State) : (faultEntry c word s).fph = s.fph := rfl
@[simp] theorem faultEntry_w (c : Cause) (word : Word) (s : State) : (faultEntry c word s).w = s.w := rfl
@[simp] theorem faultEntry_h (c : Cause) (word : Word) (s : State) : (faultEntry c word s).h = s.h := rfl
@[simp] theorem faultEntry_x (c : Cause) (word : Word) (s : State) : (faultEntry c word s).x = s.x := rfl
@[simp] theorem faultEntry_y (c : Cause) (word : Word) (s : State) : (faultEntry c word s).y = s.y := rfl
@[simp] theorem faultEntry_sph (c : Cause) (word : Word) (s : State) : (faultEntry c word s).sph = s.sph := rfl
@[simp] theorem faultEntry_err (c : Cause) (word : Word) (s : State) : (faultEntry c word s).err = true := rfl
@[simp] theorem faultEntry_cause (c : Cause) (word : Word) (s : State) : (faultEntry c word s).cause = c.code := rfl
@[simp] theorem faultEntry_fcmd (c : Cause) (word : Word) (s : State) : (faultEntry c word s).fcmd = word := rfl
@[simp] theorem faultEntry_out (c : Cause) (word : Word) (s : State) : (faultEntry c word s).out = s.out := rfl
@[simp] theorem faultEntry_raw (c : Cause) (word : Word) (s : State) : (faultEntry c word s).raw = s.raw := rfl
@[simp] theorem faultEntry_pending (c : Cause) (word : Word) (s : State) : (faultEntry c word s).pending = s.pending := rfl
@[simp] theorem faultEntry_rdData (c : Cause) (word : Word) (s : State) : (faultEntry c word s).rdData = s.rdData := rfl

/-! ### `resetBlock` (R250) -/

@[simp] theorem resetBlock_crc (s : State) : (resetBlock s).crc = State.reset.crc := rfl
@[simp] theorem resetBlock_res (s : State) : (resetBlock s).res = State.reset.res := rfl
@[simp] theorem resetBlock_type (s : State) : (resetBlock s).type = State.reset.type := rfl
@[simp] theorem resetBlock_tcnt (s : State) : (resetBlock s).tcnt = State.reset.tcnt := rfl
@[simp] theorem resetBlock_len (s : State) : (resetBlock s).len = State.reset.len := rfl
@[simp] theorem resetBlock_rem (s : State) : (resetBlock s).rem = State.reset.rem := rfl
@[simp] theorem resetBlock_fph (s : State) : (resetBlock s).fph = State.reset.fph := rfl
@[simp] theorem resetBlock_w (s : State) : (resetBlock s).w = State.reset.w := rfl
@[simp] theorem resetBlock_h (s : State) : (resetBlock s).h = State.reset.h := rfl
@[simp] theorem resetBlock_x (s : State) : (resetBlock s).x = State.reset.x := rfl
@[simp] theorem resetBlock_y (s : State) : (resetBlock s).y = State.reset.y := rfl
@[simp] theorem resetBlock_sph (s : State) : (resetBlock s).sph = State.reset.sph := rfl
@[simp] theorem resetBlock_err (s : State) : (resetBlock s).err = State.reset.err := rfl
@[simp] theorem resetBlock_cause (s : State) : (resetBlock s).cause = State.reset.cause := rfl
@[simp] theorem resetBlock_fcmd (s : State) : (resetBlock s).fcmd = State.reset.fcmd := rfl
@[simp] theorem resetBlock_out (s : State) : (resetBlock s).out = State.reset.out := rfl
@[simp] theorem resetBlock_raw (s : State) : (resetBlock s).raw = State.reset.raw := rfl
@[simp] theorem resetBlock_pending (s : State) : (resetBlock s).pending = s.pending := rfl
@[simp] theorem resetBlock_rdData (s : State) : (resetBlock s).rdData = s.rdData := rfl

end Sys2Proof.Machine
end

