-- ==== Sys2Proof/Laws/Ops.lean ====
section
/-! SUPPORT. What the shared operations can do, each said once: a command's checks and writes (00_scope.md R14), the CRC
fold (40_crc.md R102), the half-word loads and the big-endian split. -/

namespace Sys2Proof.Machine

/-! ## Checks and writes -/

/-- Everything a command's body can do (R14): fault with the first failing check, or perform its writes. -/
theorem checked_cases {checks : List (Bool × Cause)} {word : Word} {writes : State → State} {s t : State}
    (h : checked checks word writes s = .next t) :
    (∃ c, firstFailing checks = some c ∧ t = faultEntry c word s) ∨
      (firstFailing checks = none ∧ t = writes s) := by
  unfold checked at h
  split at h
  · exact .inl ⟨_, ‹_›, by simpa using h.symm⟩
  · exact .inr ⟨‹_›, by simpa using h.symm⟩

/-- A command's body always answers a next state. -/
theorem checked_next (checks : List (Bool × Cause)) (word : Word) (writes : State → State) (s : State) :
    ∃ t, checked checks word writes s = .next t := by
  unfold checked
  split <;> exact ⟨_, rfl⟩

@[simp] theorem checked_nil (word : Word) (writes : State → State) (s : State) :
    checked [] word writes s = .next (writes s) := rfl

theorem checked_cons (fails : Bool) (c : Cause) (rest : List (Bool × Cause)) (word : Word)
    (writes : State → State) (s : State) :
    checked ((fails, c) :: rest) word writes s =
      if fails then .next (faultEntry c word s) else checked rest word writes s := by
  cases fails <;> rfl

/-! ## CRC-32 -/

@[simp] theorem crcFold_nil (c : Word) : crcFold c [] = c := rfl

@[simp] theorem crcFold_cons (c : Word) (b : Byte) (bs : List Byte) :
    crcFold c (b :: bs) = crcFold (crcUpd c b) bs := rfl

theorem crcFold_append (c : Word) (bs cs : List Byte) :
    crcFold c (bs ++ cs) = crcFold (crcFold c bs) cs := List.foldl_append

@[simp] theorem crcComplement_crcComplement (c : Word) : crcComplement (crcComplement c) = c := by
  simp [crcComplement]

/-! ## Operands -/

@[simp] theorem be32_length (v : Word) : (be32 v).length = 4 := rfl

theorem getLsbD_upperMask {i : Nat} (hi : i < 32) : (0xFFFF0000 : Word).getLsbD i = decide (16 ≤ i) := by
  have : ∀ j : Fin 32, (0xFFFF0000 : Word).getLsbD j = decide (16 ≤ j.val) := by decide
  exact this ⟨i, hi⟩

theorem getLsbD_lowerMask {i : Nat} (hi : i < 32) : (0x0000FFFF : Word).getLsbD i = decide (i < 16) := by
  have : ∀ j : Fin 32, (0x0000FFFF : Word).getLsbD j = decide (j.val < 16) := by decide
  exact this ⟨i, hi⟩

/-- A bit of an upper-half load (R125). -/
theorem getLsbD_loadUpper (v : Word) (imm : Half) {i : Nat} (hi : i < 32) :
    (loadUpper v imm).getLsbD i = if i < 16 then v.getLsbD i else imm.getLsbD (i - 16) := by
  simp only [loadUpper, BitVec.getLsbD_or, BitVec.getLsbD_and, BitVec.getLsbD_shiftLeft,
    BitVec.getLsbD_setWidth, getLsbD_lowerMask hi]
  have h1 : i - 16 < 32 := by omega
  by_cases h : i < 16 <;> simp [h, hi, h1]

/-- A bit of a lower-half load (R126). -/
theorem getLsbD_loadLower (v : Word) (imm : Half) {i : Nat} (hi : i < 32) :
    (loadLower v imm).getLsbD i = if i < 16 then imm.getLsbD i else v.getLsbD i := by
  simp only [loadLower, BitVec.getLsbD_or, BitVec.getLsbD_and, BitVec.getLsbD_setWidth,
    getLsbD_upperMask hi]
  by_cases h : i < 16
  · simp [h, hi]
  · simp [h, Nat.le_of_not_lt h]

/-- R73: a 32-bit value is loaded by two commands carrying its halves. -/
@[simp] theorem loadLower_loadUpper (v n : Word) : loadLower (loadUpper v (upperHalf n)) (lowerHalf n) = n := by
  apply BitVec.eq_of_getLsbD_eq
  intro i hi
  rw [getLsbD_loadLower _ _ hi, getLsbD_loadUpper _ _ hi]
  by_cases h : i < 16
  · simp [h, lowerHalf]
  · have h1 : 16 + (i - 16) = i := by omega
    have h2 : i - 16 < 16 := by omega
    simp [h, upperHalf, h1, h2]

end Sys2Proof.Machine
end

