-- ==== Sys2Proof/Laws/Exec.lean ====
section
/-! SUPPORT. One equation per command: what `exec` answers, as a choice between the faults of 60_exceptions.md R202
in the order of R203 and the command's writes. Later proofs cite these and do not unfold a meaning. -/

namespace Sys2Proof.Machine

theorem exec_nop (s : State) : exec .nop s = .next s := rfl

theorem exec_crcInit (s : State) : exec .crcInit s =
    .next (if s.fph = .payload then faultEntry .sequence (encode .crcInit) s else s.setCrc crcInitial) := by
  simp only [exec, execCrcInit, checked_cons, frameOpen, beq_iff_eq, checked_nil]
  split_ifs <;> rfl

theorem exec_crcByte (b : Byte) (s : State) : exec (.crcByte b) s =
    .next (if s.fph = .payload then faultEntry .sequence (encode (.crcByte b)) s
      else s.setCrc (crcUpd s.crc b)) := by
  simp only [exec, execCrcByte, checked_cons, frameOpen, beq_iff_eq, checked_nil]
  split_ifs <;> rfl

theorem exec_crcFinal (s : State) : exec .crcFinal s =
    .next (if s.fph = .payload then faultEntry .sequence (encode .crcFinal) s
      else s.setRes (crcComplement s.crc)) := by
  simp only [exec, execCrcFinal, checked_cons, frameOpen, beq_iff_eq, checked_nil]
  split_ifs <;> rfl

theorem exec_outByte (b : Byte) (s : State) : exec (.outByte b) s =
    .next (if s.fph = .payload then faultEntry .sequence (encode (.outByte b)) s else s.emitOut [b]) := by
  simp only [exec, execOutByte, checked_cons, frameOpen, beq_iff_eq, checked_nil]
  split_ifs <;> rfl

theorem exec_frTypeb (b : Byte) (s : State) : exec (.frTypeb b) s =
    .next (if s.tcnt = 4 then faultEntry .typeLength (encode (.frTypeb b)) s
      else if 0x7F < b.toNat then faultEntry .typeChar (encode (.frTypeb b)) s
      else (s.setType (shiftInByte s.type b)).setTcnt (s.tcnt + 1)) := by
  simp only [exec, execFrTypeb, checked_cons, beq_iff_eq, decide_eq_true_eq, gt_iff_lt, checked_nil]
  split_ifs <;> rfl

theorem exec_frLenh (imm : Half) (s : State) : exec (.frLenh imm) s = .next (s.setLen (loadUpper s.len imm)) := rfl

theorem exec_frLenl (imm : Half) (s : State) : exec (.frLenl imm) s = .next (s.setLen (loadLower s.len imm)) := rfl

theorem exec_frStart (s : State) : exec .frStart s =
    .next (if s.fph = .payload then faultEntry .sequence (encode .frStart) s
      else if s.tcnt = 4 then openFrame s else faultEntry .typeLength (encode .frStart) s) := by
  simp only [exec, execFrStart, checked_cons, frameOpen, beq_iff_eq, bne_iff_ne, ne_eq, checked_nil]
  split_ifs <;> rfl

theorem exec_frData (b : Byte) (s : State) : exec (.frData b) s =
    .next (if s.fph = .idle then faultEntry .sequence (encode (.frData b)) s
      else if s.rem = 0 then faultEntry .lengthMismatch (encode (.frData b)) s
      else ((s.emitOut [b]).setCrc (crcUpd s.crc b)).setRem (s.rem - 1)) := by
  simp only [exec, execFrData, checked_cons, noFrame, beq_iff_eq, checked_nil]
  split_ifs <;> rfl

theorem exec_frEnd (s : State) : exec .frEnd s =
    .next (if s.fph = .idle then faultEntry .sequence (encode .frEnd) s
      else if s.rem = 0 then closeFrame s else faultEntry .lengthMismatch (encode .frEnd) s) := by
  simp only [exec, execFrEnd, checked_cons, noFrame, beq_iff_eq, bne_iff_ne, ne_eq, checked_nil]
  split_ifs <;> rfl

theorem exec_slWh (imm : Half) (s : State) : exec (.slWh imm) s =
    .next (if s.sph = .active then faultEntry .sequence (encode (.slWh imm)) s
      else s.setW (loadUpper s.w imm)) := by
  simp only [exec, execSlWh, checked_cons, jobActive, beq_iff_eq, checked_nil]
  split_ifs <;> rfl

theorem exec_slWl (imm : Half) (s : State) : exec (.slWl imm) s =
    .next (if s.sph = .active then faultEntry .sequence (encode (.slWl imm)) s
      else s.setW (loadLower s.w imm)) := by
  simp only [exec, execSlWl, checked_cons, jobActive, beq_iff_eq, checked_nil]
  split_ifs <;> rfl

theorem exec_slHh (imm : Half) (s : State) : exec (.slHh imm) s =
    .next (if s.sph = .active then faultEntry .sequence (encode (.slHh imm)) s
      else s.setH (loadUpper s.h imm)) := by
  simp only [exec, execSlHh, checked_cons, jobActive, beq_iff_eq, checked_nil]
  split_ifs <;> rfl

theorem exec_slHl (imm : Half) (s : State) : exec (.slHl imm) s =
    .next (if s.sph = .active then faultEntry .sequence (encode (.slHl imm)) s
      else s.setH (loadLower s.h imm)) := by
  simp only [exec, execSlHl, checked_cons, jobActive, beq_iff_eq, checked_nil]
  split_ifs <;> rfl

theorem exec_slStart (s : State) : exec .slStart s =
    .next (if s.sph = .active then faultEntry .sequence (encode .slStart) s
      else if s.w = 0 ∨ s.h = 0 then faultEntry .badDimension (encode .slStart) s else startJob s) := by
  simp only [exec, execSlStart, checked_cons, jobActive, beq_iff_eq, Bool.or_eq_true, checked_nil]
  split_ifs <;> rfl

theorem exec_slPix (r g bl : Byte) (s : State) : exec (.slPix r g bl) s =
    .next (if s.sph = .idle then faultEntry .sequence (encode (.slPix r g bl)) s
      else advancePosition (s.emitRaw (pixelBytes s r g bl))) := by
  simp only [exec, execSlPix, checked_cons, noJob, beq_iff_eq, checked_nil]
  split_ifs <;> rfl

/-- The writes of each command, when no check fails (R14). -/
def commandWrites : Instr → State → State
  | .nop, s => s
  | .crcInit, s => s.setCrc crcInitial
  | .crcByte b, s => s.setCrc (crcUpd s.crc b)
  | .crcFinal, s => s.setRes (crcComplement s.crc)
  | .outByte b, s => s.emitOut [b]
  | .frTypeb b, s => (s.setType (shiftInByte s.type b)).setTcnt (s.tcnt + 1)
  | .frLenh imm, s => s.setLen (loadUpper s.len imm)
  | .frLenl imm, s => s.setLen (loadLower s.len imm)
  | .frStart, s => openFrame s
  | .frData b, s => ((s.emitOut [b]).setCrc (crcUpd s.crc b)).setRem (s.rem - 1)
  | .frEnd, s => closeFrame s
  | .slWh imm, s => s.setW (loadUpper s.w imm)
  | .slWl imm, s => s.setW (loadLower s.w imm)
  | .slHh imm, s => s.setH (loadUpper s.h imm)
  | .slHl imm, s => s.setH (loadLower s.h imm)
  | .slStart, s => startJob s
  | .slPix r g bl, s => advancePosition (s.emitRaw (pixelBytes s r g bl))

/-- The checks of each command, in the order of R203. -/
def commandChecks : Instr → State → List (Bool × Cause)
  | .nop, _ => []
  | .crcInit, s => [frameOpen s]
  | .crcByte _, s => [frameOpen s]
  | .crcFinal, s => [frameOpen s]
  | .outByte _, s => [frameOpen s]
  | .frTypeb b, s => [(s.tcnt == 4, .typeLength), (decide (b.toNat > 0x7F), .typeChar)]
  | .frLenh _, _ => []
  | .frLenl _, _ => []
  | .frStart, s => [frameOpen s, (s.tcnt != 4, .typeLength)]
  | .frData _, s => [noFrame s, (s.rem == 0, .lengthMismatch)]
  | .frEnd, s => [noFrame s, (s.rem != 0, .lengthMismatch)]
  | .slWh _, s => [jobActive s]
  | .slWl _, s => [jobActive s]
  | .slHh _, s => [jobActive s]
  | .slHl _, s => [jobActive s]
  | .slStart, s => [jobActive s, (s.w == 0 || s.h == 0, .badDimension)]
  | .slPix _ _ _, s => [noJob s]

/-- Every command is its checks and then its writes (R14). -/
theorem exec_eq_checked (i : Instr) (s : State) :
    exec i s = checked (commandChecks i s) (encode i) (commandWrites i) s := by
  cases i <;> rfl

/-- Everything a command can do: record a fault with its own word, or perform its writes. -/
theorem exec_cases {i : Instr} {s t : State} (h : exec i s = .next t) :
    (∃ c, firstFailing (commandChecks i s) = some c ∧ t = faultEntry c (encode i) s) ∨
      (firstFailing (commandChecks i s) = none ∧ t = commandWrites i s) :=
  checked_cases (exec_eq_checked i s ▸ h)

/-- Every command runs to a next state: what it records of a fault is state (R204). -/
theorem exec_next (i : Instr) (s : State) : ∃ t, exec i s = .next t := by
  rw [exec_eq_checked]
  exact checked_next _ _ _ _

/-! ## Frames of the composite writes -/

@[simp] theorem openFrame_crc (s : State) : (openFrame s).crc = crcFold crcInitial (be32 s.type) := rfl
@[simp] theorem openFrame_res (s : State) : (openFrame s).res = s.res := rfl
@[simp] theorem openFrame_type (s : State) : (openFrame s).type = s.type := rfl
@[simp] theorem openFrame_tcnt (s : State) : (openFrame s).tcnt = 0 := rfl
@[simp] theorem openFrame_len (s : State) : (openFrame s).len = s.len := rfl
@[simp] theorem openFrame_rem (s : State) : (openFrame s).rem = s.len := rfl
@[simp] theorem openFrame_fph (s : State) : (openFrame s).fph = .payload := rfl
@[simp] theorem openFrame_w (s : State) : (openFrame s).w = s.w := rfl
@[simp] theorem openFrame_h (s : State) : (openFrame s).h = s.h := rfl
@[simp] theorem openFrame_x (s : State) : (openFrame s).x = s.x := rfl
@[simp] theorem openFrame_y (s : State) : (openFrame s).y = s.y := rfl
@[simp] theorem openFrame_sph (s : State) : (openFrame s).sph = s.sph := rfl
@[simp] theorem openFrame_err (s : State) : (openFrame s).err = s.err := rfl
@[simp] theorem openFrame_cause (s : State) : (openFrame s).cause = s.cause := rfl
@[simp] theorem openFrame_fcmd (s : State) : (openFrame s).fcmd = s.fcmd := rfl
@[simp] theorem openFrame_out (s : State) : (openFrame s).out = s.out ++ be32 s.len ++ be32 s.type := rfl
@[simp] theorem openFrame_raw (s : State) : (openFrame s).raw = s.raw := rfl
@[simp] theorem openFrame_pending (s : State) : (openFrame s).pending = s.pending := rfl
@[simp] theorem openFrame_rdData (s : State) : (openFrame s).rdData = s.rdData := rfl

@[simp] theorem closeFrame_crc (s : State) : (closeFrame s).crc = s.crc := rfl
@[simp] theorem closeFrame_res (s : State) : (closeFrame s).res = crcComplement s.crc := rfl
@[simp] theorem closeFrame_type (s : State) : (closeFrame s).type = s.type := rfl
@[simp] theorem closeFrame_tcnt (s : State) : (closeFrame s).tcnt = s.tcnt := rfl
@[simp] theorem closeFrame_len (s : State) : (closeFrame s).len = s.len := rfl
@[simp] theorem closeFrame_rem (s : State) : (closeFrame s).rem = s.rem := rfl
@[simp] theorem closeFrame_fph (s : State) : (closeFrame s).fph = .idle := rfl
@[simp] theorem closeFrame_w (s : State) : (closeFrame s).w = s.w := rfl
@[simp] theorem closeFrame_h (s : State) : (closeFrame s).h = s.h := rfl
@[simp] theorem closeFrame_x (s : State) : (closeFrame s).x = s.x := rfl
@[simp] theorem closeFrame_y (s : State) : (closeFrame s).y = s.y := rfl
@[simp] theorem closeFrame_sph (s : State) : (closeFrame s).sph = s.sph := rfl
@[simp] theorem closeFrame_err (s : State) : (closeFrame s).err = s.err := rfl
@[simp] theorem closeFrame_cause (s : State) : (closeFrame s).cause = s.cause := rfl
@[simp] theorem closeFrame_fcmd (s : State) : (closeFrame s).fcmd = s.fcmd := rfl
@[simp] theorem closeFrame_out (s : State) : (closeFrame s).out = s.out ++ be32 (crcComplement s.crc) := rfl
@[simp] theorem closeFrame_raw (s : State) : (closeFrame s).raw = s.raw := rfl
@[simp] theorem closeFrame_pending (s : State) : (closeFrame s).pending = s.pending := rfl
@[simp] theorem closeFrame_rdData (s : State) : (closeFrame s).rdData = s.rdData := rfl

@[simp] theorem startJob_crc (s : State) : (startJob s).crc = s.crc := rfl
@[simp] theorem startJob_res (s : State) : (startJob s).res = s.res := rfl
@[simp] theorem startJob_type (s : State) : (startJob s).type = s.type := rfl
@[simp] theorem startJob_tcnt (s : State) : (startJob s).tcnt = s.tcnt := rfl
@[simp] theorem startJob_len (s : State) : (startJob s).len = s.len := rfl
@[simp] theorem startJob_rem (s : State) : (startJob s).rem = s.rem := rfl
@[simp] theorem startJob_fph (s : State) : (startJob s).fph = s.fph := rfl
@[simp] theorem startJob_w (s : State) : (startJob s).w = s.w := rfl
@[simp] theorem startJob_h (s : State) : (startJob s).h = s.h := rfl
@[simp] theorem startJob_x (s : State) : (startJob s).x = 0 := rfl
@[simp] theorem startJob_y (s : State) : (startJob s).y = 0 := rfl
@[simp] theorem startJob_sph (s : State) : (startJob s).sph = .active := rfl
@[simp] theorem startJob_err (s : State) : (startJob s).err = s.err := rfl
@[simp] theorem startJob_cause (s : State) : (startJob s).cause = s.cause := rfl
@[simp] theorem startJob_fcmd (s : State) : (startJob s).fcmd = s.fcmd := rfl
@[simp] theorem startJob_out (s : State) : (startJob s).out = s.out := rfl
@[simp] theorem startJob_raw (s : State) : (startJob s).raw = s.raw := rfl
@[simp] theorem startJob_pending (s : State) : (startJob s).pending = s.pending := rfl
@[simp] theorem startJob_rdData (s : State) : (startJob s).rdData = s.rdData := rfl

@[simp] theorem advancePosition_crc (s : State) : (advancePosition s).crc = s.crc := by
  unfold advancePosition endRow; split <;> [split; skip] <;> rfl
@[simp] theorem advancePosition_res (s : State) : (advancePosition s).res = s.res := by
  unfold advancePosition endRow; split <;> [split; skip] <;> rfl
@[simp] theorem advancePosition_type (s : State) : (advancePosition s).type = s.type := by
  unfold advancePosition endRow; split <;> [split; skip] <;> rfl
@[simp] theorem advancePosition_tcnt (s : State) : (advancePosition s).tcnt = s.tcnt := by
  unfold advancePosition endRow; split <;> [split; skip] <;> rfl
@[simp] theorem advancePosition_len (s : State) : (advancePosition s).len = s.len := by
  unfold advancePosition endRow; split <;> [split; skip] <;> rfl
@[simp] theorem advancePosition_rem (s : State) : (advancePosition s).rem = s.rem := by
  unfold advancePosition endRow; split <;> [split; skip] <;> rfl
@[simp] theorem advancePosition_fph (s : State) : (advancePosition s).fph = s.fph := by
  unfold advancePosition endRow; split <;> [split; skip] <;> rfl
@[simp] theorem advancePosition_w (s : State) : (advancePosition s).w = s.w := by
  unfold advancePosition endRow; split <;> [split; skip] <;> rfl
@[simp] theorem advancePosition_h (s : State) : (advancePosition s).h = s.h := by
  unfold advancePosition endRow; split <;> [split; skip] <;> rfl
@[simp] theorem advancePosition_err (s : State) : (advancePosition s).err = s.err := by
  unfold advancePosition endRow; split <;> [split; skip] <;> rfl
@[simp] theorem advancePosition_cause (s : State) : (advancePosition s).cause = s.cause := by
  unfold advancePosition endRow; split <;> [split; skip] <;> rfl
@[simp] theorem advancePosition_fcmd (s : State) : (advancePosition s).fcmd = s.fcmd := by
  unfold advancePosition endRow; split <;> [split; skip] <;> rfl
@[simp] theorem advancePosition_out (s : State) : (advancePosition s).out = s.out := by
  unfold advancePosition endRow; split <;> [split; skip] <;> rfl
@[simp] theorem advancePosition_raw (s : State) : (advancePosition s).raw = s.raw := by
  unfold advancePosition endRow; split <;> [split; skip] <;> rfl
@[simp] theorem advancePosition_pending (s : State) : (advancePosition s).pending = s.pending := by
  unfold advancePosition endRow; split <;> [split; skip] <;> rfl
@[simp] theorem advancePosition_rdData (s : State) : (advancePosition s).rdData = s.rdData := by
  unfold advancePosition endRow; split <;> [split; skip] <;> rfl

/-- R159: the position after a pixel, in the middle of a row. -/
theorem advancePosition_mid {s : State} (h : s.x + 1 ≠ s.w) : advancePosition s = s.setX (s.x + 1) := by
  rw [advancePosition, if_neg (by simpa using h)]

/-- R159: the position after the last pixel of a row that is not the last row. -/
theorem advancePosition_row {s : State} (h : s.x + 1 = s.w) (hy : s.y + 1 ≠ s.h) :
    advancePosition s = (s.setX 0).setY (s.y + 1) := by
  rw [advancePosition, if_pos (by simpa using h), endRow, if_neg (by simpa using hy)]

/-- R159: the position after the last pixel of the job. -/
theorem advancePosition_last {s : State} (h : s.x + 1 = s.w) (hy : s.y + 1 = s.h) :
    advancePosition s = ((s.setX 0).setY (s.y + 1)).setSph .idle := by
  rw [advancePosition, if_pos (by simpa using h), endRow, if_pos (by simpa using hy)]

end Sys2Proof.Machine
end

