-- ==== Sys2Proof/Laws/PerInstr.lean ====
section
/-! SUPPORT. A statement made per command: what its word looks like. -/

namespace Sys2Proof.Laws.Encoding

open Sys2Proof

/-- The command is well-formed (R81), and its word carries the opcode of its row of R75 and no reserved bit
(R71 to R74, R81). -/
def Statement (i : Instr) : Prop :=
  i.wellFormed = true ∧ opcodeOf (encode i) = (rowOf i).op ∧ i.format.reservedClear (encode i) = true

theorem fits_byte (b : Byte) : Format.b.admits [b.toNat] = true := by
  simpa [Format.admits, Format.operandBounds] using b.isLt

theorem fits_half (imm : Half) : Format.c.admits [imm.toNat] = true := by
  simpa [Format.admits, Format.operandBounds] using imm.isLt

theorem fits_rgb (r g bl : Byte) : Format.d.admits [r.toNat, g.toNat, bl.toNat] = true := by
  have hr := r.isLt
  have hg := g.isLt
  have hb := bl.isLt
  simp only [Format.admits, Format.operandBounds]
  simp
  omega

theorem nop : Statement .nop := ⟨rfl, opcodeOf_commandWord_zero _, reservedClear_commandWord_zero _⟩

theorem crcInit : Statement .crcInit := ⟨rfl, opcodeOf_commandWord_zero _, reservedClear_commandWord_zero _⟩

theorem crcByte (b : Byte) : Statement (.crcByte b) :=
  ⟨fits_byte b, opcodeOf_commandWord_byte _ b, reservedClear_commandWord_byte _ b⟩

theorem crcFinal : Statement .crcFinal := ⟨rfl, opcodeOf_commandWord_zero _, reservedClear_commandWord_zero _⟩

theorem outByte (b : Byte) : Statement (.outByte b) :=
  ⟨fits_byte b, opcodeOf_commandWord_byte _ b, reservedClear_commandWord_byte _ b⟩

theorem frTypeb (b : Byte) : Statement (.frTypeb b) :=
  ⟨fits_byte b, opcodeOf_commandWord_byte _ b, reservedClear_commandWord_byte _ b⟩

theorem frLenh (imm : Half) : Statement (.frLenh imm) :=
  ⟨fits_half imm, opcodeOf_commandWord_half _ imm, reservedClear_commandWord_half _ imm⟩

theorem frLenl (imm : Half) : Statement (.frLenl imm) :=
  ⟨fits_half imm, opcodeOf_commandWord_half _ imm, reservedClear_commandWord_half _ imm⟩

theorem frStart : Statement .frStart := ⟨rfl, opcodeOf_commandWord_zero _, reservedClear_commandWord_zero _⟩

theorem frData (b : Byte) : Statement (.frData b) :=
  ⟨fits_byte b, opcodeOf_commandWord_byte _ b, reservedClear_commandWord_byte _ b⟩

theorem frEnd : Statement .frEnd := ⟨rfl, opcodeOf_commandWord_zero _, reservedClear_commandWord_zero _⟩

theorem slWh (imm : Half) : Statement (.slWh imm) :=
  ⟨fits_half imm, opcodeOf_commandWord_half _ imm, reservedClear_commandWord_half _ imm⟩

theorem slWl (imm : Half) : Statement (.slWl imm) :=
  ⟨fits_half imm, opcodeOf_commandWord_half _ imm, reservedClear_commandWord_half _ imm⟩

theorem slHh (imm : Half) : Statement (.slHh imm) :=
  ⟨fits_half imm, opcodeOf_commandWord_half _ imm, reservedClear_commandWord_half _ imm⟩

theorem slHl (imm : Half) : Statement (.slHl imm) :=
  ⟨fits_half imm, opcodeOf_commandWord_half _ imm, reservedClear_commandWord_half _ imm⟩

theorem slStart : Statement .slStart := ⟨rfl, opcodeOf_commandWord_zero _, reservedClear_commandWord_zero _⟩

theorem slPix (r g bl : Byte) : Statement (.slPix r g bl) :=
  ⟨fits_rgb r g bl, opcodeOf_commandWord_rgb _ r g bl, reservedClear_d _⟩

end Sys2Proof.Laws.Encoding
end

