-- ==== Sys2Proof/Laws/Port.lean ====
section
/-! SUPPORT. What the ports can do: one host action, lists of actions (20_memory.md R52, R53, R56, R63), and the host's
side of the ports, which no command touches. -/

namespace Sys2Proof.Machine

/-! ## One command word -/

/-- R206. -/
theorem acceptCommand_faulted {s : State} (word : Word) (h : s.err = true) : acceptCommand word s = .next s := by
  simp [acceptCommand, h]

/-- R76: a legal word runs its command. -/
theorem acceptCommand_legal {s : State} {word : Word} {i : Instr} (h : s.err = false) (hd : decode word = .ok i) :
    acceptCommand word s = exec i s := by
  simp [acceptCommand, h, hd]

/-- R76: an illegal word raises ILLEGAL_CMD. -/
theorem acceptCommand_illegal {s : State} {word : Word} {e : DecodeError} (h : s.err = false)
    (hd : decode word = .error e) : acceptCommand word s = .next (faultEntry .illegalCmd word s) := by
  simp [acceptCommand, h, hd]

/-- Everything a command word can do. -/
theorem acceptCommand_cases {word : Word} {s t : State} (h : acceptCommand word s = .next t) :
    (s.err = true ∧ t = s) ∨
      (∃ i, s.err = false ∧ decode word = .ok i ∧ exec i s = .next t) ∨
      (∃ e, s.err = false ∧ decode word = .error e ∧ t = faultEntry .illegalCmd word s) := by
  cases he : s.err with
  | true => exact .inl ⟨rfl, by simpa [acceptCommand_faulted word he] using h.symm⟩
  | false =>
    cases hd : decode word with
    | ok i => exact .inr (.inl ⟨i, rfl, rfl, by rwa [acceptCommand_legal he hd] at h⟩)
    | error e => exact .inr (.inr ⟨e, rfl, rfl, by simpa [acceptCommand_illegal he hd] using h.symm⟩)

theorem acceptCommand_next (word : Word) (s : State) : ∃ t, acceptCommand word s = .next t := by
  unfold acceptCommand
  split
  · exact ⟨s, rfl⟩
  · split
    · exact exec_next _ s
    · exact ⟨_, rfl⟩

/-! ## One action -/

theorem perform_next (action : HostAction) (s : State) : ∃ t, perform action s = .next t := by
  cases action with
  | command word => exact acceptCommand_next word s
  | read index => exact ⟨_, rfl⟩
  | reset => exact ⟨_, rfl⟩

/-- Everything a step can do: nothing is pending and the state stays, or the first pending action is performed. -/
theorem step_cases {s t : State} (h : step s = .next t) :
    (s.pending = [] ∧ t = s) ∨
      ∃ action rest, s.pending = action :: rest ∧ perform action (s.setPending rest) = .next t := by
  unfold step performNext at h
  split at h
  · exact .inl ⟨‹_›, by simpa using h.symm⟩
  · exact .inr ⟨_, _, ‹_›, h⟩

theorem step_of_pending {s : State} {action : HostAction} {rest : List HostAction}
    (h : s.pending = action :: rest) : step s = perform action (s.setPending rest) := by
  simp [step, performNext, h]

/-! ## The host's side of the ports -/

/-- No command touches what the host does next, or what RD has answered. -/
theorem exec_pending {i : Instr} {s t : State} (h : exec i s = .next t) :
    t.pending = s.pending ∧ t.rdData = s.rdData := by
  rcases exec_cases h with ⟨c, -, rfl⟩ | ⟨-, rfl⟩
  · simp
  · cases i <;> simp [commandWrites]

theorem acceptCommand_pending {word : Word} {s t : State} (h : acceptCommand word s = .next t) :
    t.pending = s.pending ∧ t.rdData = s.rdData := by
  rcases acceptCommand_cases h with ⟨-, rfl⟩ | ⟨i, -, -, h⟩ | ⟨e, -, -, rfl⟩
  · simp
  · exact exec_pending h
  · simp

/-- Performing an action takes nothing off the pending list; only a step does. -/
theorem perform_pending {action : HostAction} {s t : State} (h : perform action s = .next t) :
    t.pending = s.pending := by
  cases action with
  | command word => exact (acceptCommand_pending h).1
  | read index => simp only [perform, Host.Outcome.next.injEq] at h; subst h; rfl
  | reset => simp only [perform, Host.Outcome.next.injEq] at h; subst h; rfl

theorem advancePosition_setPending (s : State) (actions : List HostAction) :
    advancePosition (s.setPending actions) = (advancePosition s).setPending actions := by
  by_cases hx : s.x + 1 = s.w
  · by_cases hy : s.y + 1 = s.h
    · rw [advancePosition_last hx hy, advancePosition_last (s := s.setPending actions) hx hy]; rfl
    · rw [advancePosition_row hx hy, advancePosition_row (s := s.setPending actions) hx hy]; rfl
  · rw [advancePosition_mid hx, advancePosition_mid (s := s.setPending actions) hx]; rfl

/-- What the host does next has no effect on a command. -/
theorem exec_setPending {i : Instr} {s t : State} (actions : List HostAction) (h : exec i s = .next t) :
    exec i (s.setPending actions) = .next (t.setPending actions) := by
  rw [exec_eq_checked] at h ⊢
  have hc : commandChecks i (s.setPending actions) = commandChecks i s := by cases i <;> rfl
  have hw : commandWrites i (s.setPending actions) = (commandWrites i s).setPending actions := by
    cases i <;> first | rfl | exact advancePosition_setPending (s.emitRaw _) actions
  rw [hc]
  rcases checked_cases h with ⟨c, hf, rfl⟩ | ⟨hf, rfl⟩
  · rw [checked, hf]; rfl
  · rw [checked, hf, ← hw]

theorem acceptCommand_setPending {word : Word} {s t : State} (actions : List HostAction)
    (h : acceptCommand word s = .next t) :
    acceptCommand word (s.setPending actions) = .next (t.setPending actions) := by
  rcases acceptCommand_cases h with ⟨he, rfl⟩ | ⟨i, he, hd, h⟩ | ⟨e, he, hd, rfl⟩
  · rw [acceptCommand_faulted _ (by simpa using he)]
  · rw [acceptCommand_legal (by simpa using he) hd, exec_setPending actions h]
  · rw [acceptCommand_illegal (by simpa using he) hd]; rfl

@[simp] theorem readRegister_setPending (index : BitVec 4) (s : State) (actions : List HostAction) :
    readRegister index (s.setPending actions) = readRegister index s := by
  unfold readRegister
  split <;> rfl

/-- What the host does next has no effect on the action before it (R63). -/
theorem perform_setPending {action : HostAction} {s t : State} (actions : List HostAction)
    (h : perform action s = .next t) :
    perform action (s.setPending actions) = .next (t.setPending actions) := by
  cases action with
  | command word => exact acceptCommand_setPending actions h
  | read index =>
    simp only [perform, Host.Outcome.next.injEq, readRegister_setPending] at h ⊢
    subst h; rfl
  | reset => simp only [perform, Host.Outcome.next.injEq] at h ⊢; subst h; rfl

/-! ## Lists of actions -/

@[simp] theorem performAll_nil (s : State) : performAll [] s = .next s := rfl

theorem performAll_cons {action : HostAction} {s t : State} (rest : List HostAction)
    (h : perform action s = .next t) : performAll (action :: rest) s = performAll rest t := by
  simp [performAll, h]

theorem performAll_next (actions : List HostAction) (s : State) : ∃ t, performAll actions s = .next t := by
  induction actions generalizing s with
  | nil => exact ⟨s, rfl⟩
  | cons action rest ih =>
    obtain ⟨t, h⟩ := perform_next action s
    rw [performAll_cons rest h]
    exact ih t

theorem performAll_append {as : List HostAction} {s t : State} (bs : List HostAction)
    (h : performAll as s = .next t) : performAll (as ++ bs) s = performAll bs t := by
  induction as generalizing s with
  | nil => simp_all
  | cons action rest ih =>
    obtain ⟨u, hu⟩ := perform_next action s
    rw [performAll_cons rest hu] at h
    rw [List.cons_append, performAll_cons _ hu, ih h]

theorem issue_next (commands : List Instr) (s : State) : ∃ t, issue commands s = .next t :=
  performAll_next _ s

@[simp] theorem issue_nil (s : State) : issue [] s = .next s := rfl

theorem issue_append {as : List Instr} {s t : State} (bs : List Instr) (h : issue as s = .next t) :
    issue (as ++ bs) s = issue bs t := by
  unfold issue at *
  rw [List.map_append, performAll_append _ h]

end Sys2Proof.Machine
end

