-- ==== Sys2Proof/Tests/Slice0.lean ====
section
/-! SUPPORT. Tests of the model against the words and vectors the spec writes out (30_encoding.md R70 to R88 and
95_test_vectors.md; every test names its source), and, for every obligation with hypotheses, a concrete state and
operands that meet them. -/

namespace Sys2Proof.Tests

open Sys2Proof Sys2Proof.Machine

/-! ## Helpers -/

/-- The next state of an outcome. -/
def nextOf : Host.Outcome State Fault Refusal → Option State
  | .next t => some t
  | .fault _ => none
  | .refused _ => none

/-- One step in which the host writes `w` on CMD. -/
def afterWord (w : Nat) (s : State) : Option State := nextOf (step (s.withFetchWord 32 w))

/-- ERR, CAUSE and FCMD after that step. -/
def faultAfter (w : Nat) (s : State) : Option (Bool × Byte × Word) :=
  (afterWord w s).map fun t => (t.err, t.cause, t.fcmd)

/-- A frame of type "IEND" is open with `owed` bytes to come. -/
def frame (owed crc : Word) : State :=
  { State.reset with fph := .payload, type := 0x49454E44, len := owed, rem := owed, crc := crc }

/-- `n` characters of the next type are loaded, the last four of them in `type`. -/
def typed (type : Word) (n : BitVec 3) : State := { State.reset with type := type, tcnt := n }

/-- A job of `w` by `h` pixels is active and expects the pixel in column `x` of row `y`. -/
def job (w h x y : Word) : State := { State.reset with w := w, h := h, x := x, y := y, sph := .active }

/-- A block that has faulted on the word 0xFFFFFFFF. -/
def faulted : State := { State.reset with err := true, cause := 0x01, fcmd := 0xFFFFFFFF }

/-- The end of a run of commands. -/
def endOf (commands : List Instr) (s : State) : Option State := nextOf (issue commands s)

/-- One pixel colour for every position. -/
def plain (r g bl : Byte) : Nat → Nat → Pixel := fun _ _ => ⟨r, g, bl⟩

/-! ## Well-formedness (R81): an ill-formed term for each check -/

theorem test_formatA_refuses_an_operand : Format.a.admits [0] = false := by decide
theorem test_formatB_refuses_no_operand : Format.b.admits [] = false := by decide
theorem test_formatB_refuses_two_operands : Format.b.admits [1, 2] = false := by decide
theorem test_formatB_refuses_256 : Format.b.admits [256] = false ∧ Format.b.admits [255] = true := by decide
theorem test_formatC_refuses_65536 : Format.c.admits [65536] = false ∧ Format.c.admits [65535] = true := by decide
theorem test_formatD_refuses_two_operands : Format.d.admits [1, 2] = false := by decide
theorem test_formatD_refuses_256 :
    Format.d.admits [256, 0, 0] = false ∧ Format.d.admits [0, 256, 0] = false ∧
    Format.d.admits [0, 0, 256] = false ∧ Format.d.admits [255, 255, 255] = true := by decide
theorem test_formatA_reserves_bits_0_to_23 :
    Format.a.reservedClear 0x00000001 = false ∧ Format.a.reservedClear 0x00800000 = false := by decide
theorem test_formatB_reserves_bits_8_to_23 :
    Format.b.reservedClear 0x00000100 = false ∧ Format.b.reservedClear 0x00800000 = false ∧
    Format.b.reservedClear 0x000000FF = true := by decide
theorem test_formatC_reserves_bits_16_to_23 :
    Format.c.reservedClear 0x00010000 = false ∧ Format.c.reservedClear 0x00800000 = false ∧
    Format.c.reservedClear 0x0000FFFF = true := by decide
theorem test_formatD_reserves_nothing : Format.d.reservedClear 0x00FFFFFF = true := by decide

/-! ## Decoding: a word for every command, written out from R71 to R75 -/

/-- 0000_0000 then 24 zeros. -/
theorem test_decode_nop : decode 0b00000000_00000000_00000000_00000000 = .ok .nop := by decide
/-- op 0x01, format A. -/
theorem test_decode_crcInit : decode 0b00000001_00000000_00000000_00000000 = .ok .crcInit := by decide
/-- op 0x02, format B, b = 0xA5. -/
theorem test_decode_crcByte : decode 0b00000010_00000000_00000000_10100101 = .ok (.crcByte 0xA5) := by decide
/-- op 0x03, format A. -/
theorem test_decode_crcFinal : decode 0b00000011_00000000_00000000_00000000 = .ok .crcFinal := by decide
/-- op 0x08, format B, b = 0x89. -/
theorem test_decode_outByte : decode 0b00001000_00000000_00000000_10001001 = .ok (.outByte 0x89) := by decide
/-- op 0x10, format B, b = 0x49. -/
theorem test_decode_frTypeb : decode 0b00010000_00000000_00000000_01001001 = .ok (.frTypeb 0x49) := by decide
/-- op 0x11, format C, imm16 = 0x8001. -/
theorem test_decode_frLenh : decode 0b00010001_00000000_10000000_00000001 = .ok (.frLenh 0x8001) := by decide
/-- op 0x12, format C, imm16 = 0x000D. -/
theorem test_decode_frLenl : decode 0b00010010_00000000_00000000_00001101 = .ok (.frLenl 0x000D) := by decide
/-- op 0x13, format A. -/
theorem test_decode_frStart : decode 0b00010011_00000000_00000000_00000000 = .ok .frStart := by decide
/-- op 0x14, format B, b = 0xAA. -/
theorem test_decode_frData : decode 0b00010100_00000000_00000000_10101010 = .ok (.frData 0xAA) := by decide
/-- op 0x15, format A. -/
theorem test_decode_frEnd : decode 0b00010101_00000000_00000000_00000000 = .ok .frEnd := by decide
/-- op 0x20, format C, imm16 = 0x0102. -/
theorem test_decode_slWh : decode 0b00100000_00000000_00000001_00000010 = .ok (.slWh 0x0102) := by decide
/-- op 0x21, format C, imm16 = 0x0002. -/
theorem test_decode_slWl : decode 0b00100001_00000000_00000000_00000010 = .ok (.slWl 0x0002) := by decide
/-- op 0x22, format C, imm16 = 0xFF00. -/
theorem test_decode_slHh : decode 0b00100010_00000000_11111111_00000000 = .ok (.slHh 0xFF00) := by decide
/-- op 0x23, format C, imm16 = 0x0003. -/
theorem test_decode_slHl : decode 0b00100011_00000000_00000000_00000011 = .ok (.slHl 0x0003) := by decide
/-- op 0x24, format A. -/
theorem test_decode_slStart : decode 0b00100100_00000000_00000000_00000000 = .ok .slStart := by decide
/-- op 0x25, format D: r, g, bl in that order from the high end (R74). -/
theorem test_decode_slPix : decode 0b00100101_00000001_00000010_00000011 = .ok (.slPix 1 2 3) := by decide

/-- The reserved words of V-DEC2, V-DEC6, V-DEC7, V-CRC-C12, V-FR20, V-FR21 and V-SL16. -/
theorem test_decode_refuses_reserved_bits :
    decode 0x00000001 = .error (.reservedBits 0x00) ∧ decode 0x11010000 = .error (.reservedBits 0x11) ∧
    decode 0x24800000 = .error (.reservedBits 0x24) ∧ decode 0x02000100 = .error (.reservedBits 0x02) ∧
    decode 0x13000001 = .error (.reservedBits 0x13) ∧ decode 0x10000180 = .error (.reservedBits 0x10) ∧
    decode 0x21010002 = .error (.reservedBits 0x21) := by decide

/-- The unassigned opcodes of V-DEC3, V-DEC4 and V-DEC5, and the edges of the ranges of R77. -/
theorem test_decode_refuses_unassigned_opcodes :
    decode 0xFFFFFFFF = .error (.unassignedOpcode 0xFF) ∧ decode 0x04000000 = .error (.unassignedOpcode 0x04) ∧
    decode 0x26000000 = .error (.unassignedOpcode 0x26) ∧ decode 0x07000000 = .error (.unassignedOpcode 0x07) ∧
    decode 0x09000000 = .error (.unassignedOpcode 0x09) ∧ decode 0x0F000000 = .error (.unassignedOpcode 0x0F) ∧
    decode 0x16000000 = .error (.unassignedOpcode 0x16) ∧ decode 0x1F000000 = .error (.unassignedOpcode 0x1F) := by
  decide

/-- R80: every command is one 32-bit word. -/
theorem test_decodeTableWord :
    decodeTableWord 32 0x25010203 = some (.slPix 1 2 3) ∧ decodeTableWord 32 0x00000001 = none ∧
    decodeTableWord 40 0x0100000000 = none := by decide

/-! ## One step of each command, from 95_test_vectors.md -/

/-- V-DEC9. -/
theorem test_nop_changes_nothing :
    afterWord 0x00000000 { frame 1 0 with sph := .active, w := 2, h := 1 } =
      some { frame 1 0 with sph := .active, w := 2, h := 1 } := by decide
/-- R105, example. -/
theorem test_crcInit : (afterWord 0x01000000 { State.reset with crc := 0x12345678 }).map (·.crc) = some 0xFFFFFFFF := by
  decide
/-- V-CRC-C9. -/
theorem test_crcInit_in_a_frame :
    faultAfter 0x01000000 (frame 0 0x51BD9F7D) = some (true, 0x02, 0x01000000) := by decide
/-- V-CRC-C2. -/
theorem test_crcByte : (afterWord 0x02000031 State.reset).map (·.crc) = some 0x7C231048 := by decide
/-- V-CRC-F8: a register and a byte with no symmetry. -/
theorem test_crcByte_mixed :
    (afterWord 0x020000A5 { State.reset with crc := 0x12345678 }).map (·.crc) = some 0xF8709A3F := by decide
/-- V-CRC-C4, its last step. -/
theorem test_crcFinal :
    (afterWord 0x03000000 { State.reset with crc := 0x340BC6D9 }).map (fun t => (t.res, t.crc)) =
      some (0xCBF43926, 0x340BC6D9) := by decide
/-- V-CRC-C10. -/
theorem test_crcFinal_in_a_frame : faultAfter 0x03000000 (frame 0 0) = some (true, 0x02, 0x03000000) := by decide
/-- V-FR1. -/
theorem test_outByte : (afterWord 0x08000089 State.reset).map (·.out) = some [0x89] := by decide
/-- V-FR18. -/
theorem test_outByte_in_a_frame :
    faultAfter 0x08000000 (frame 0 0) = some (true, 0x02, 0x08000000) := by decide
/-- V-FR2, its last step. -/
theorem test_frTypeb :
    (afterWord 0x10000044 (typed 0x0049454E 3)).map (fun t => (t.type, t.tcnt)) = some (0x49454E44, 4) := by decide
/-- V-FR22: TYPE_LENGTH before TYPE_CHAR. -/
theorem test_frTypeb_fifth_character :
    faultAfter 0x10000080 (typed 0x41424344 4) = some (true, 0x03, 0x10000080) := by decide
/-- V-FR7, its last step. -/
theorem test_frLenh : (afterWord 0x1100FFFF { State.reset with len := 0x0000000D }).map (·.len) = some 0xFFFF000D := by
  decide
/-- V-FR19, its first step: LEN changes during a frame and REM does not. -/
theorem test_frLenl : (afterWord 0x12000005 (frame 1 0)).map (fun t => (t.len, t.rem)) = some (5, 1) := by decide
/-- V-FR9, its last step. -/
theorem test_frStart :
    (afterWord 0x13000000 { typed 0x49484452 4 with len := 0x0000000D }).map (fun t => (t.crc, t.out)) =
      some (0x575E51F5, [0x00, 0x00, 0x00, 0x0D, 0x49, 0x48, 0x44, 0x52]) := by decide +kernel
/-- V-FR23: SEQUENCE before TYPE_LENGTH. -/
theorem test_frStart_in_a_frame :
    faultAfter 0x13000000 { frame 0 0 with tcnt := 2 } = some (true, 0x02, 0x13000000) := by decide
/-- R128, example. -/
theorem test_frData :
    (afterWord 0x14000000 (frame 13 0x575E51F5)).map (fun t => (t.crc, t.rem, t.out)) =
      some (0xCD8058C2, 12, [0x00]) := by decide
/-- V-FR15. -/
theorem test_frData_too_long : faultAfter 0x14000000 (frame 0 0) = some (true, 0x05, 0x14000000) := by decide
/-- V-FR8, its last step. -/
theorem test_frEnd :
    (afterWord 0x15000000 (frame 0 0x51BD9F7D)).map (fun t => (t.res, t.crc, t.out)) =
      some (0xAE426082, 0x51BD9F7D, [0xAE, 0x42, 0x60, 0x82]) := by decide
/-- V-FR16. -/
theorem test_frEnd_too_short : faultAfter 0x15000000 (frame 1 0) = some (true, 0x05, 0x15000000) := by decide
/-- R154, example. -/
theorem test_slWh : (afterWord 0x20000001 { State.reset with w := 2 }).map (·.w) = some 0x00010002 := by decide
/-- R155, example. -/
theorem test_slWl : (afterWord 0x21000002 State.reset).map (·.w) = some 0x00000002 := by decide
/-- V-SL12. -/
theorem test_slWl_in_a_job : faultAfter 0x21000003 (job 2 1 0 0) = some (true, 0x02, 0x21000003) := by decide
/-- R156, example. -/
theorem test_slHh : (afterWord 0x22000000 { State.reset with h := 5 }).map (·.h) = some 0x00000005 := by decide
/-- R157, example. -/
theorem test_slHl : (afterWord 0x23000002 State.reset).map (·.h) = some 0x00000002 := by decide
/-- V-SL2, its last step. -/
theorem test_slStart :
    (afterWord 0x24000000 { State.reset with w := 2, h := 1 }).map (fun t => (t.sph, t.x, t.y)) =
      some (.active, 0, 0) := by decide
/-- V-SL9, its last step. -/
theorem test_slStart_no_width :
    faultAfter 0x24000000 { State.reset with h := 5 } = some (true, 0x06, 0x24000000) := by decide
/-- V-SL3. -/
theorem test_slPix :
    (afterWord 0x25010203 (job 2 1 0 0)).map (fun t => (t.raw, t.x)) = some ([0x00, 0x01, 0x02, 0x03], 1) := by decide
/-- V-SL4, its last step. -/
theorem test_slPix_last :
    (afterWord 0x25040506 (job 2 1 1 0)).map (fun t => (t.raw, t.x, t.y, t.sph)) =
      some ([0x04, 0x05, 0x06], 0, 1, .idle) := by decide

/-- V-DEC8: a faulted block ignores a legal word and an illegal one. -/
theorem test_faulted_ignores :
    afterWord 0x01000000 faulted = some faulted ∧ afterWord 0x00000001 faulted = some faulted := by decide
/-- V-RD5, V-RD7. -/
theorem test_read_status :
    readRegister 0x0 { frame 13 0 with tcnt := 2 } = 0x00000201 ∧
    readRegister 0x0 { typed 0x0049454E 3 with err := true, cause := 0x03, fcmd := 0x13000000 } = 0x00030304 := by
  decide
/-- V-RD2, V-RD3, V-RD4. -/
theorem test_read_at_reset :
    readRegister 0x2 State.reset = 0xFFFFFFFF ∧ readRegister 0xB State.reset = 0 ∧
    readRegister 0xF State.reset = 0 := by decide
/-- R56: reset from the faulted state. -/
theorem test_reset_step :
    nextOf (step { faulted with out := [0x89], pending := [.reset] }) = some State.reset := by decide

/-! ## The CRC functions (V-CRC-F) -/

/-- V-CRC-F11, V-CRC-F12, V-CRC-F15. -/
theorem test_crc32_short :
    crc32 [0x61] = 0xE8B7BE43 ∧ crc32 [0x00] = 0xD202EF8D ∧ crc32 [0xFF, 0xFF, 0xFF, 0xFF] = 0xFFFFFFFF := by
  decide +kernel
/-- V-CRC-F16 to V-CRC-F18. -/
theorem test_crc32_tags :
    crc32 tagIend.bytes = 0xAE426082 ∧ crc32 tagIhdr.bytes = 0xA8A1AE0A ∧ crc32 tagIdat.bytes = 0x35AF061E := by
  decide +kernel
/-- V-FR10: the IHDR chunk of a 2 by 2 image. -/
theorem test_makeChunk_ihdr :
    makeChunk tagIhdr (ihdrPayload 2 2) =
      [0x00, 0x00, 0x00, 0x0D, 0x49, 0x48, 0x44, 0x52, 0x00, 0x00, 0x00, 0x02, 0x00, 0x00, 0x00, 0x02] ++
        [0x08, 0x02, 0x00, 0x00, 0x00, 0xFD, 0xD4, 0x9A, 0x73] := by decide +kernel
/-- E6: the 2 by 1 image of the source. -/
theorem test_rawScanlines :
    rawScanlines 2 1 (fun x _ => if x = 0 then ⟨1, 2, 3⟩ else ⟨4, 5, 6⟩) = [0, 1, 2, 3, 4, 5, 6] := by decide

/-! ## The assembler (R81 to R88; the examples are in `Obligations.AssemblerExamples`) -/

/-- R81: "An operand out of range is an assembler error, not a block fault". -/
theorem test_assembler_range :
    assembleLine "CRC.BYTE 256".toList = .error .operandsDoNotFit ∧
    assembleLine "SL.WH 65536".toList = .error .operandsDoNotFit ∧
    assembleLine "SL.PIX 1, 2".toList = .error .operandsDoNotFit := by decide +kernel
/-- R81: mnemonics in either case, hexadecimal, comments. -/
theorem test_assembler_forms :
    assembleLine "  fr.lenl 0x000d ; thirteen".toList = .ok [.frLenl 13] ∧
    assembleLine "CRC.BYTE ';'".toList = .ok [.crcByte 0x3B] ∧
    assembleLine "; a comment".toList = .ok [] := by decide +kernel
/-- R82: "the assembler refuses any other string". -/
theorem test_assembler_type_string :
    assembleLine "FR.TYPE \"IHD\"".toList = .error .operandsDoNotFit ∧
    assembleLine "FR.TYPE \"IHDRS\"".toList = .error .operandsDoNotFit := by decide +kernel
/-- R82: the quotation mark, the comma and the semicolon lie in 0x20 to 0x7E, so a type may hold them anywhere. -/
theorem test_assembler_type_with_quotes :
    assembleLine "FR.TYPE \"a\"bc\"".toList = .ok [.frTypeb 0x61, .frTypeb 0x22, .frTypeb 0x62, .frTypeb 0x63] ∧
    assembleLine "FR.TYPE \"\"\"\"\"\"".toList =
      .ok [.frTypeb 0x22, .frTypeb 0x22, .frTypeb 0x22, .frTypeb 0x22] ∧
    assembleLine "FR.TYPE \"a\",\"\" ; comment".toList =
      .ok [.frTypeb 0x61, .frTypeb 0x22, .frTypeb 0x2C, .frTypeb 0x22] := by decide +kernel
/-- R87: the same in `FR.CHUNK`, with payload bytes after the type. -/
theorem test_assembler_chunk_with_quotes :
    assembleLine "FR.CHUNK \"ab\";\", 7, \"x\"y\"".toList =
      .ok (frChunk ⟨0x61, 0x62, 0x22, 0x3B⟩ [7, 0x78, 0x22, 0x79]) := by
  decide +kernel
/-- The model's choice (log entry 19): names of pseudo-instructions in either case. -/
theorem test_assembler_pseudo_in_lower_case :
    assembleLine "fr.len 13".toList = .ok [.frLenh 0, .frLenl 13] := by decide +kernel
theorem test_assembler_unknown :
    assembleLine "CRC.RESET".toList = .error .unknownMnemonic ∧
    assembleLine "CRC.BYTE x".toList = .error .badOperand := by decide +kernel

/-! ## Witnesses: states and operands that meet the hypotheses of the obligations

One theorem per obligation with hypotheses, and in it one line per clause, at a boundary value of the clause. -/

theorem witness_DecodeOfEncodeIsTheCommand :
    (Instr.slPix 255 0 255).wellFormed = true ∧ (Instr.frLenh 0xFFFF).wellFormed = true ∧
    (Instr.crcByte 255).wellFormed = true ∧ Instr.nop.wellFormed = true := by decide

theorem witness_EncodeOfDecodeIsTheWord : decode 0x25FFFFFF = .ok (.slPix 255 255 255) := by decide

theorem witness_WordEncodesARowIffItMatches :
    (⟨"SL.PIX", .d, 0x25⟩ : OpcodeRow) ∈ opcodeMap ∧
    (0x25FFFFFF : Word) &&& (⟨"SL.PIX", .d, 0x25⟩ : OpcodeRow).mask =
      (⟨"SL.PIX", .d, 0x25⟩ : OpcodeRow).matchWord ∧ decode 0x25FFFFFF = .ok (.slPix 255 255 255) := by decide

theorem witness_UnassignedOpcodesAreIllegal :
    State.reset.err = false ∧ 0x04 ≤ ((0x04000000 : Word).extractLsb' 24 8).toNat ∧
    ((0x07FFFFFF : Word).extractLsb' 24 8).toNat ≤ 0x07 ∧ 0x09 ≤ ((0x09000000 : Word).extractLsb' 24 8).toNat ∧
    ((0x0F000000 : Word).extractLsb' 24 8).toNat ≤ 0x0F ∧ 0x16 ≤ ((0x16000000 : Word).extractLsb' 24 8).toNat ∧
    ((0x1F000000 : Word).extractLsb' 24 8).toNat ≤ 0x1F ∧ 0x26 ≤ ((0x26000000 : Word).extractLsb' 24 8).toNat := by
  decide

theorem witness_AssemblerAcceptsExactlyInRangeOperands :
    (⟨"SL.PIX", .d, 0x25⟩ : OpcodeRow) ∈ opcodeMap ∧ Format.d.admits [255, 0, 255] = true ∧
    Format.d.admits [255, 0, 256] = false := by decide

theorem witness_TypeStringsAreFourPrintableCharacters :
    (∀ c ∈ [' ', '"', ',', '~'], 0x20 ≤ c.toNat ∧ c.toNat ≤ 0x7E) ∧
    ('"' ∉ ['a', ',', 'b'] ∧ ['a', ',', 'b'].length ≠ 4) ∧
    ((',' ∉ ['a', '"', 'b', 'c', 'd'] ∧ ';' ∉ ['a', '"', 'b', 'c', 'd']) ∧ ['a', '"', 'b', 'c', 'd'].length ≠ 4) ∧
    ('"' ∉ ['a', 'b', 'c', '\t'] ∧ ∃ c ∈ ['a', 'b', 'c', '\t'], ¬ (0x20 ≤ c.toNat ∧ c.toNat ≤ 0x7E)) := by
  simp

theorem witness_TypeStringsAreFourPrintableCharacters_text :
    assembleLine ("FR.TYPE ".toList ++ "\"\"\"\"\"\"  ; four quotes".toList) =
      .ok [.frTypeb 0x22, .frTypeb 0x22, .frTypeb 0x22, .frTypeb 0x22] := by decide +kernel

theorem witness_StepRunsTheDecodedCommand :
    ({ faulted with pending := [.command 0x01000000] } : State).pending = .command 0x01000000 :: [] ∧
    faulted.err = true ∧
    (State.reset.withFetchWord 32 0x02000031).pending = .command 0x02000031 :: [] ∧ State.reset.err = false ∧
    decode 0x02000031 = .ok (.crcByte 0x31) ∧ (Instr.crcByte 0x31).wellFormed = true ∧
    decode 0xFFFFFFFF = .error (.unassignedOpcode 0xFF) := by decide

theorem witness_StepsPerformPendingActionsInOrder :
    State.reset.pending = [] ∧
    (nextOf (performAll [.command 0x08000089, .read 0x1, .reset] State.reset)).isSome = true := by decide

theorem witness_ReadStepChangesNoBlockState :
    ({ faulted with pending := [.read 0xA] } : State).pending = .read 0xA :: [] ∧ 0xB ≤ (0xB : BitVec 4).toNat := by
  decide

theorem witness_ReadPortIndexMap : 0xB ≤ (0xB : BitVec 4).toNat ∧ 0xB ≤ (0xF : BitVec 4).toNat := by decide

theorem witness_ResetStepRestoresResetValues :
    ({ faulted with pending := [.reset] } : State).pending = .reset :: [] := by decide

theorem witness_IdleStepHoldsTheState : faulted.pending = [] := by decide

theorem witness_inv_of_job : (job 2 1 1 0).Inv :=
  ⟨by decide, by decide, by decide, by decide, by decide, by decide, by decide⟩

theorem witness_EveryStepKeepsTheInvariants :
    ((job 2 1 1 0).withFetchWord 32 0x25010203).Inv ∧
    (nextOf (step ((job 2 1 1 0).withFetchWord 32 0x25010203))).isSome = true :=
  ⟨⟨by decide, by decide, by decide, by decide, by decide, by decide, by decide⟩, by decide⟩

theorem witness_FaultsArePrecise :
    State.reset.err = false ∧ (nextOf (acceptCommand 0x14000000 State.reset)).map (·.err) = some true := by decide

theorem witness_FaultMatrixAndPriority :
    State.reset.err = false ∧ reportedCause 0x10000180 (typed 0 4) = some .illegalCmd ∧
    reportedCause 0x13000000 { frame 0 0 with tcnt := 2 } = some .sequence ∧
    reportedCause 0x10000080 (typed 0 4) = some .typeLength ∧
    reportedCause 0x10000080 (typed 0 3) = some .typeChar ∧
    reportedCause 0x15000000 (frame 1 0) = some .lengthMismatch ∧
    reportedCause 0x24000000 State.reset = some .badDimension ∧
    reportedCause 0x1000007F (typed 0 3) = none := by decide

theorem witness_FaultedBlockIgnoresEveryWord :
    faulted.err = true ∧ HostAction.reset ∉ [HostAction.command 0x01000000, .command 0xFFFFFFFF, .read 0x0] := by
  decide

theorem witness_StreamsOnlyGrowWithinARun :
    HostAction.reset ∉ [HostAction.command 0x08000089, .read 0x0] ∧
    (nextOf (performAll [.command 0x08000089, .read 0x0] State.reset)).isSome = true := by decide

theorem witness_RegistersChangeOnlyByTheirWriters :
    (nextOf (exec (.frData 0x41) (frame 1 0))).map (fun t => (t.crc != 0, t.rem != 1, t.out != [])) =
      some (true, true, true) ∧
    (nextOf (exec .frEnd (frame 1 0))).map (·.err) = some true := by decide

theorem witness_PrependerAndFramerDoNotInterfere :
    State.reset.err = false ∧
    (endOf [.slWl 1, .outByte 7, .slHl 1, .slStart, .crcByte 0, .slPix 1 2 3] State.reset).map (·.err) =
      some false := by decide

theorem witness_DimensionsFrozenDuringAJob :
    (job 2 1 0 0).sph = .active ∧ (nextOf (acceptCommand 0x21000003 (job 2 1 0 0))).isSome = true ∧
    (frame 1 0).fph = .payload ∧ { frame 1 0 with tcnt := 3 }.tcnt.toNat < 4 ∧ (0x7F : Byte).toNat ≤ 0x7F := by
  decide

theorem witness_EveryClosedFrameIsAChunk :
    { typed 0x49454E44 4 with len := 1 }.err = false ∧ Instr.frEnd ∉ [Instr.nop, .frData 0x41] ∧
    (endOf ([.frStart] ++ [Instr.nop, .frData 0x41] ++ [.frEnd]) { typed 0x49454E44 4 with len := 1 }).map (·.err) =
      some false ∧
    (endOf ([.frStart] ++ [] ++ [.frEnd]) (typed 0x49454E44 4)).map (·.err) = some false := by decide +kernel

theorem witness_EveryFinishedJobHasFullLength :
    { State.reset with w := 1, h := 1 }.err = false ∧ Instr.slStart ∉ [Instr.slPix 1 2 3] ∧
    (endOf ([.slStart] ++ [Instr.slPix 1 2 3]) { State.reset with w := 1, h := 1 }).map (fun t => (t.err, t.sph)) =
      some (false, .idle) := by decide

theorem witness_OnlyNopNeverChangesState :
    decode 0x00000000 = .ok .nop ∧ decode 0x01000000 = .ok .crcInit ∧ State.reset.err = false := by decide

theorem witness_CrcOfComputesCrc32 : State.reset.err = false ∧ State.reset.fph = .idle := by decide

theorem witness_PseudoInstructionsLoadTheirOperands :
    State.reset.err = false ∧ (⟨0x00, 0x7F, 0x41, 0x42⟩ : ChunkTag).ascii = true ∧ State.reset.tcnt = 0 ∧
    State.reset.sph = .idle ∧ State.reset.fph = .idle := by decide

theorem witness_ChunkSequenceEmitsMakeChunk :
    (⟨0x00, 0x7F, 0x41, 0x42⟩ : ChunkTag).ascii = true ∧ ([] : List Byte).length < 2 ^ 32 ∧
    State.reset.err = false ∧ State.reset.fph = .idle ∧ State.reset.tcnt = 0 ∧
    ((Instr.slWl 1 :: frChunk tagIend []).filter fun i => !ofPrepender i) = frChunk tagIend [] ∧
    (endOf (Instr.slWl 1 :: frChunk tagIend []) State.reset).map (·.err) = some false := by decide +kernel

theorem witness_ChunkLengthAndCrcFields : ([0x41] : List Byte).length < 2 ^ 32 := by decide

theorem witness_ScanlineJobEmitsRawScanlines :
    (1 : Word) ≠ 0 ∧ State.reset.err = false ∧ State.reset.sph = .idle ∧ 0 < (1 : Word).toNat ∧
    ((slJob 1 1 (plain 1 2 3) ++ [Instr.outByte 7]).filter ofPrepender) = slJob 1 1 (plain 1 2 3) ∧
    (endOf (slJob 1 1 (plain 1 2 3) ++ [Instr.outByte 7]) State.reset).map (·.err) = some false := by decide

theorem witness_EncodeProcedureEmitsThePngFile :
    (1 : Word) ≠ 0 ∧ State.reset.err = false ∧ State.reset.fph = .idle ∧ State.reset.sph = .idle ∧
    State.reset.tcnt = 0 ∧
    (some : List Byte → Option (List Byte)) (rawScanlines (1 : Word).toNat (1 : Word).toNat (plain 1 2 3)) =
      some [0, 1, 2, 3] ∧
    ([0, 1, 2, 3] : List Byte).length < 2 ^ 32 := by decide

theorem witness_EncodeProcedureFailuresEmitNothing :
    State.reset.err = false ∧ State.reset.fph = .idle ∧ State.reset.sph = .idle ∧ State.reset.tcnt = 0 ∧
    (0 : Word) = 0 ∧ (1 : Word) ≠ 0 ∧
    (fun _ => none : Config.Compress) (rawScanlines (1 : Word).toNat (1 : Word).toNat (plain 1 2 3)) = none := by
  decide

/-- The hypotheses of `IllegalUnlessZero` in the commands' own statements, format A: the lowest and the highest reserved bit of each opcode. -/
theorem witness_reserved_field_a :
    State.reset.err = false ∧
    ∀ op ∈ [0x00, 0x01, 0x03, 0x13, 0x15, 0x24], ∀ bit ∈ [0x000001, 0x800000],
      ((zext32 (BitVec.ofNat 8 op) <<< 24 ||| BitVec.ofNat 32 bit : Word).extractLsb' 24 8).toNat = op ∧
      (zext32 (BitVec.ofNat 8 op) <<< 24 ||| BitVec.ofNat 32 bit : Word).extractLsb' 0 24 ≠ 0 := by decide

/-- The same for format B (`CRC.BYTE`, `OUT.BYTE`, `FR.TYPEB`, `FR.DATA`). -/
theorem witness_reserved_field_b :
    ∀ op ∈ [0x02, 0x08, 0x10, 0x14], ∀ bit ∈ [0x000100, 0x800000],
      ((zext32 (BitVec.ofNat 8 op) <<< 24 ||| BitVec.ofNat 32 bit : Word).extractLsb' 24 8).toNat = op ∧
      (zext32 (BitVec.ofNat 8 op) <<< 24 ||| BitVec.ofNat 32 bit : Word).extractLsb' 8 16 ≠ 0 := by decide

/-- The same for format C (`FR.LENH`, `FR.LENL`, `SL.WH`, `SL.WL`, `SL.HH`, `SL.HL`). -/
theorem witness_reserved_field_c :
    ∀ op ∈ [0x11, 0x12, 0x20, 0x21, 0x22, 0x23], ∀ bit ∈ [0x010000, 0x800000],
      ((zext32 (BitVec.ofNat 8 op) <<< 24 ||| BitVec.ofNat 32 bit : Word).extractLsb' 24 8).toNat = op ∧
      (zext32 (BitVec.ofNat 8 op) <<< 24 ||| BitVec.ofNat 32 bit : Word).extractLsb' 16 8 ≠ 0 := by decide

theorem witness_CrcInitStartsAChecksum : (frame 0 0).fph = .payload ∧ State.reset.fph = .idle := by decide

theorem witness_CrcByteFoldsOneByte : (frame 0 0).fph = .payload ∧ State.reset.fph = .idle := by decide

theorem witness_OutByteEmitsOutsideAFrame : (frame 0 0).fph = .payload ∧ State.reset.fph = .idle := by decide

theorem witness_CrcFinalPublishesTheComplement :
    (frame 0 0).fph = .payload ∧ { State.reset with crc := 0x340BC6D9 }.fph = .idle ∧
    { State.reset with crc := 0x340BC6D9 }.crc = 0x340BC6D9 := by decide

theorem witness_FrTypebShiftsACharacterIn :
    (typed 0 4).tcnt = 4 ∧ (typed 0 3).tcnt ≠ 4 ∧ 0x7F < (0x80 : Byte).toNat ∧ (0x7F : Byte).toNat ≤ 0x7F := by decide

theorem witness_FrStartOpensAFrame :
    (frame 0 0).fph = .payload ∧ (typed 0 3).fph = .idle ∧ (typed 0 3).tcnt ≠ 4 ∧ (typed 0 4).fph = .idle ∧
    (typed 0 4).tcnt = 4 := by decide

theorem witness_FrDataEmitsAPayloadByte :
    State.reset.fph = .idle ∧ (frame 0 0).fph = .payload ∧ (frame 0 0).rem = 0 ∧ (frame 1 0).fph = .payload ∧
    (frame 1 0).rem ≠ 0 := by decide

theorem witness_FrEndClosesTheFrame :
    State.reset.fph = .idle ∧ (frame 1 0).fph = .payload ∧ (frame 1 0).rem ≠ 0 ∧ (frame 0 0).fph = .payload ∧
    (frame 0 0).rem = 0 := by decide

theorem witness_SlWhLoadsTheUpperWidth :
    (job 2 1 0 0).sph = .active ∧ State.reset.sph = .idle := by decide

theorem witness_SlWlLoadsTheLowerWidth :
    (job 2 1 0 0).sph = .active ∧ State.reset.sph = .idle := by decide

theorem witness_SlHhLoadsTheUpperHeight :
    (job 2 1 0 0).sph = .active ∧ State.reset.sph = .idle := by decide

theorem witness_SlHlLoadsTheLowerHeight :
    (job 2 1 0 0).sph = .active ∧ State.reset.sph = .idle := by decide

theorem witness_SlStartBeginsAJob :
    (job 2 1 0 0).sph = .active ∧ State.reset.sph = .idle ∧ { State.reset with h := 1 }.w = 0 ∧
    { State.reset with w := 1 }.h = 0 ∧ { State.reset with w := 1, h := 1 }.w ≠ 0 ∧
    { State.reset with w := 1, h := 1 }.h ≠ 0 := by decide

theorem witness_SlPixAcceptsAPixel :
    State.reset.sph = .idle ∧ (job 2 1 0 0).sph = .active ∧ (job 2 1 0 0).x = 0 ∧ (job 2 1 1 0).x ≠ 0 ∧
    (job 2 1 0 0).x + 1 ≠ (job 2 1 0 0).w ∧
    ((job 2 2 1 0).x + 1 = (job 2 2 1 0).w ∧ (job 2 2 1 0).y + 1 ≠ (job 2 2 1 0).h) ∧
    ((job 2 2 1 1).x + 1 = (job 2 2 1 1).w ∧ (job 2 2 1 1).y + 1 = (job 2 2 1 1).h) := by decide

end Sys2Proof.Tests
end

section
/-! The state of the block (10_state.md): its invariants (R41), its streams (R38), the writers of its registers
(R22 to R36), the STATUS view (R37), the RD index map (R43) and the values after reset (R42). -/

namespace Sys2Proof.Machine

/-! ## Checks and writes -/

/-- A command's checks pass exactly when none of them fails (R14). -/
theorem firstFailing_eq_none {checks : List (Bool × Cause)} :
    firstFailing checks = none ↔ ∀ check ∈ checks, check.1 = false := by
  induction checks with
  | nil => simp [firstFailing]
  | cons check rest ih =>
    obtain ⟨fails, c⟩ := check
    cases fails <;> simp [firstFailing, ih]

/-- R34 to R36: a command's own writes touch no fault register. -/
theorem commandWrites_faultRegisters (i : Instr) (s : State) :
    (commandWrites i s).err = s.err ∧ (commandWrites i s).cause = s.cause ∧
      (commandWrites i s).fcmd = s.fcmd := by
  cases i <;> simp [commandWrites]

/-- R38: a command's own writes only append to OUT and RAW. -/
theorem commandWrites_streams_grow (i : Instr) (s : State) :
    s.out <+: (commandWrites i s).out ∧ s.raw <+: (commandWrites i s).raw := by
  cases i <;> simp [commandWrites]

/-! ## The invariants of a reachable state (R41) -/

/-- R201: the code of a cause lies in 0x01 to 0x06. -/
theorem Cause.code_range (c : Cause) : 1 ≤ c.code.toNat ∧ c.code.toNat ≤ 6 := by
  cases c <;> decide

namespace State.Inv

variable {s : State}

/-- The invariants speak of no pending action. -/
theorem setPending (hs : s.Inv) (actions : List HostAction) : (s.setPending actions).Inv := { hs with }

/-- The invariants speak of no answer of RD. -/
theorem answerRead (hs : s.Inv) (v : Word) : (s.answerRead v).Inv := { hs with }

/-- R204: after fault entry ERR is 1 and CAUSE is a code of R201. -/
theorem faultEntry (hs : s.Inv) (c : Cause) (word : Word) : (faultEntry c word s).Inv where
  __ := hs
  err_cause := by
    have hpos := c.code_range.1
    have hne : c.code ≠ 0x00 := by bv_omega
    simpa using hne
  cause_le := c.code_range.2
  fcmd_clear := by simp

/-- R124: one more character, while fewer than four are loaded. -/
theorem loadTypeByte (hs : s.Inv) (b : Byte) (h4 : s.tcnt ≠ 4) :
    ((s.setType (shiftInByte s.type b)).setTcnt (s.tcnt + 1)).Inv where
  __ := hs
  tcnt_le := by
    have hle := hs.tcnt_le
    simp only [setTcnt_tcnt]
    bv_omega

/-- R127: `FR.START` consumes the type, and an open frame may owe bytes. -/
theorem openFrame (hs : s.Inv) : (openFrame s).Inv where
  __ := hs
  tcnt_le := by simp
  rem_idle := by simp

/-- R128: a payload byte of an open frame. -/
theorem emitPayloadByte (hs : s.Inv) (b : Byte) (hopen : s.fph ≠ .idle) :
    (((s.emitOut [b]).setCrc (crcUpd s.crc b)).setRem (s.rem - 1)).Inv where
  __ := hs
  rem_idle := fun hidle => absurd hidle hopen

/-- R129: a frame that owes nothing is closed. -/
theorem closeFrame (hs : s.Inv) (hrem : s.rem = 0) : (closeFrame s).Inv where
  __ := hs
  rem_idle := fun _ => hrem

/-- R154, R155: W is loaded while no job is active. -/
theorem setW (hs : s.Inv) (v : Word) (hidle : s.sph ≠ .active) : (s.setW v).Inv where
  __ := hs
  active := fun h => absurd h hidle

/-- R156, R157: H is loaded while no job is active. -/
theorem setH (hs : s.Inv) (v : Word) (hidle : s.sph ≠ .active) : (s.setH v).Inv where
  __ := hs
  active := fun h => absurd h hidle

/-- R158: a job starts at column 0 of row 0 of an image with both dimensions positive. -/
theorem startJob (hs : s.Inv) (hw : s.w ≠ 0) (hh : s.h ≠ 0) : (startJob s).Inv where
  __ := hs
  active := by
    intro _
    simp only [startJob_w, startJob_h, startJob_x, startJob_y]
    bv_omega
  x_idle := by simp

/-- R159: the position after a pixel stays in the image, and X is 0 once the job has ended. -/
theorem advancePosition (hs : s.Inv) (hactive : s.sph = .active) : (advancePosition s).Inv := by
  obtain ⟨hw, hh, hx, hy⟩ := hs.active hactive
  by_cases hrow : s.x + 1 = s.w
  · by_cases hlast : s.y + 1 = s.h
    · rw [advancePosition_last hrow hlast]
      exact { hs with active := by simp, x_idle := by simp }
    · rw [advancePosition_row hrow hlast]
      have hy' : (s.y + 1).toNat < s.h.toNat := by bv_omega
      exact { hs with
        active := fun _ => ⟨hw, hh, hw, hy'⟩
        x_idle := by simp }
  · rw [advancePosition_mid hrow]
    have hx' : (s.x + 1).toNat < s.w.toNat := by bv_omega
    exact { hs with
      active := fun _ => ⟨hw, hh, hx', hy⟩
      x_idle := fun hidle => by simp [hactive] at hidle }

/-- A command whose checks pass keeps the invariants. -/
theorem commandWrites (hs : s.Inv) {i : Instr} (hpass : firstFailing (commandChecks i s) = none) :
    (commandWrites i s).Inv := by
  rw [firstFailing_eq_none] at hpass
  cases i with
  | nop => exact hs
  | crcInit | crcByte | crcFinal | outByte | frLenh | frLenl => exact { hs with }
  | frTypeb b =>
    have hfacts : s.tcnt ≠ 4 ∧ b.toNat ≤ 0x7F := by simpa [commandChecks] using hpass
    exact hs.loadTypeByte b hfacts.1
  | frStart => exact hs.openFrame
  | frData b =>
    have hfacts : s.fph ≠ .idle ∧ s.rem ≠ 0 := by simpa [commandChecks, noFrame] using hpass
    exact hs.emitPayloadByte b hfacts.1
  | frEnd =>
    have hfacts : s.fph ≠ .idle ∧ s.rem = 0 := by simpa [commandChecks, noFrame] using hpass
    exact hs.closeFrame hfacts.2
  | slWh | slWl => exact hs.setW _ (by simpa [commandChecks, jobActive] using hpass)
  | slHh | slHl => exact hs.setH _ (by simpa [commandChecks, jobActive] using hpass)
  | slStart =>
    have hfacts : s.sph ≠ .active ∧ s.w ≠ 0 ∧ s.h ≠ 0 := by simpa [commandChecks, jobActive] using hpass
    exact hs.startJob hfacts.2.1 hfacts.2.2
  | slPix r g bl =>
    have hjob : s.sph ≠ .idle := by simpa [commandChecks, noJob] using hpass
    have hactive : s.sph = .active := by
      cases h : s.sph with
      | idle => exact absurd h hjob
      | active => rfl
    have hemit : (s.emitRaw (pixelBytes s r g bl)).Inv := { hs with }
    exact hemit.advancePosition hactive

theorem exec (hs : s.Inv) {i : Instr} {t : State} (h : exec i s = .next t) : t.Inv := by
  rcases exec_cases h with ⟨c, -, rfl⟩ | ⟨hpass, rfl⟩
  · exact hs.faultEntry c _
  · exact hs.commandWrites hpass

theorem acceptCommand (hs : s.Inv) {word : Word} {t : State} (h : acceptCommand word s = .next t) : t.Inv := by
  rcases acceptCommand_cases h with ⟨-, rfl⟩ | ⟨i, -, -, hexec⟩ | ⟨e, -, -, rfl⟩
  · exact hs
  · exact hs.exec hexec
  · exact hs.faultEntry _ _

/-- R42: the invariants hold after reset. -/
theorem reset : State.reset.Inv := by
  constructor <;> decide

theorem resetBlock (s : State) : (resetBlock s).Inv := { reset with }

theorem perform (hs : s.Inv) {action : HostAction} {t : State} (h : perform action s = .next t) : t.Inv := by
  cases action with
  | command word => exact hs.acceptCommand h
  | read index =>
    cases h
    exact hs.answerRead _
  | reset =>
    cases h
    exact resetBlock s

end State.Inv

/-- Settles O17: a step keeps the state or performs one action, and every action keeps the invariants. -/
theorem everyStepKeepsTheInvariants : Obligations.EveryStepKeepsTheInvariants := by
  intro s t hs h
  rcases step_cases h with ⟨-, rfl⟩ | ⟨action, rest, -, hperform⟩
  · exact hs
  · exact (hs.setPending rest).perform hperform

/-- Settles O18. -/
theorem resetMeetsTheInvariants : Obligations.ResetMeetsTheInvariants := State.Inv.reset

/-! ## The streams (R38) -/

theorem exec_streams_grow {i : Instr} {s t : State} (h : exec i s = .next t) :
    s.out <+: t.out ∧ s.raw <+: t.raw := by
  rcases exec_cases h with ⟨c, -, rfl⟩ | ⟨-, rfl⟩
  · simp
  · exact commandWrites_streams_grow i s

theorem acceptCommand_streams_grow {word : Word} {s t : State} (h : acceptCommand word s = .next t) :
    s.out <+: t.out ∧ s.raw <+: t.raw := by
  rcases acceptCommand_cases h with ⟨-, rfl⟩ | ⟨i, -, -, hexec⟩ | ⟨e, -, -, rfl⟩
  · simp
  · exact exec_streams_grow hexec
  · simp

/-- Every action but a reset only appends to the streams. -/
theorem perform_streams_grow {action : HostAction} {s t : State} (hne : action ≠ .reset)
    (h : perform action s = .next t) : s.out <+: t.out ∧ s.raw <+: t.raw := by
  cases action with
  | command word => exact acceptCommand_streams_grow h
  | read index =>
    cases h
    simp
  | reset => exact absurd rfl hne

/-- Settles O22, by induction on the list of actions. -/
theorem streamsOnlyGrowWithinARun : Obligations.StreamsOnlyGrowWithinARun := by
  intro actions
  induction actions with
  | nil =>
    intro s t _ h
    cases h
    simp
  | cons action rest ih =>
    intro s t hreset h
    obtain ⟨hne, hrest⟩ := not_or.1 (List.mem_cons.not.1 hreset)
    obtain ⟨u, hu⟩ := perform_next action s
    rw [performAll_cons rest hu] at h
    obtain ⟨hout, hraw⟩ := perform_streams_grow (Ne.symm hne) hu
    obtain ⟨hout', hraw'⟩ := ih u t hrest h
    exact ⟨hout.trans hout', hraw.trans hraw'⟩

/-! ## The writers of each register (R22 to R36) -/

/-- Settles O23: a fault entry touches the fault registers alone, and a command that passes its checks makes its
own writes alone. -/
theorem registersChangeOnlyByTheirWriters : Obligations.RegistersChangeOnlyByTheirWriters := by
  intro i s t h
  rcases exec_cases h with ⟨c, -, rfl⟩ | ⟨-, rfl⟩
  · have hentry : ∃ c' : Cause, faultEntry c (encode i) s =
        { s with err := true, cause := c'.code, fcmd := encode i } := ⟨c, rfl⟩
    simpa using fun _ => hentry
  · obtain ⟨herr, hcause, hfcmd⟩ := commandWrites_faultRegisters i s
    simp only [herr, hcause, hfcmd]
    cases i <;> simp [commandWrites, rowOf]

/-! ## The STATUS view (R37) -/

@[simp] theorem FramerPhase.bit_getElem_zero (p : FramerPhase) : p.bit[0] = true ↔ p = .payload := by
  cases p <;> decide

@[simp] theorem PrependerPhase.bit_getElem_zero (p : PrependerPhase) : p.bit[0] = true ↔ p = .active := by
  cases p <;> decide

/-- Bit by bit, STATUS is its five fields, each moved to its place. -/
theorem getLsbD_statusView (s : State) {i : Nat} (hi : i < 32) :
    (statusView s).getLsbD i =
      (s.fph.bit.getLsbD i || (if i < 1 then false else s.sph.bit.getLsbD (i - 1)) ||
        (if i < 2 then false else (BitVec.ofBool s.err).getLsbD (i - 2)) ||
        (if i < 8 then false else s.tcnt.getLsbD (i - 8)) ||
        (if i < 16 then false else s.cause.getLsbD (i - 16))) := by
  simp [statusView, hi]

theorem statusView_tcnt (s : State) : (statusView s).extractLsb' 8 3 = s.tcnt := by
  ext i hi
  rw [BitVec.getElem_extractLsb', getLsbD_statusView s (by omega)]
  simp (disch := omega) only [if_pos, if_neg, BitVec.getLsbD_of_ge, Nat.add_sub_cancel_left,
    BitVec.getLsbD_eq_getElem, Bool.or_false, Bool.false_or]

theorem statusView_cause (s : State) : (statusView s).extractLsb' 16 8 = s.cause := by
  ext i hi
  rw [BitVec.getElem_extractLsb', getLsbD_statusView s (by omega)]
  simp (disch := omega) only [if_neg, BitVec.getLsbD_of_ge, Nat.add_sub_cancel_left,
    BitVec.getLsbD_eq_getElem, Bool.or_false, Bool.false_or]

/-- R37: the bits of STATUS that belong to no field. -/
theorem getLsbD_statusView_reserved (s : State) {i : Nat}
    (h : 3 ≤ i ∧ i < 8 ∨ 11 ≤ i ∧ i < 16 ∨ 24 ≤ i ∧ i < 32) : (statusView s).getLsbD i = false := by
  rw [getLsbD_statusView s (by omega)]
  obtain hlow | hmiddle | hhigh := h
  · simp (disch := omega) only [if_pos, if_neg, BitVec.getLsbD_of_ge, Bool.or_false]
  · simp (disch := omega) only [if_pos, if_neg, BitVec.getLsbD_of_ge, Bool.or_false]
  · simp (disch := omega) only [if_neg, BitVec.getLsbD_of_ge, Bool.or_false]

/-- Settles O13. -/
theorem statusFieldsReadTheirRegisters : Obligations.StatusFieldsReadTheirRegisters := by
  refine ⟨fun s => ⟨?fbusy, ?sbusy, ?err, ?low, statusView_tcnt s, ?middle, statusView_cause s, ?high⟩,
    by decide⟩
  case fbusy | sbusy | err => rw [getLsbD_statusView s (by decide)]; simp
  case low | middle | high =>
    ext i hi
    rw [BitVec.getElem_extractLsb', getLsbD_statusView_reserved s (by omega)]
    simp

/-! ## The RD index map (R43) and the values after reset (R42) -/

/-- R43: the reserved indices read 0. -/
theorem readRegister_reserved {index : BitVec 4} (h : 0xB ≤ index.toNat) (s : State) :
    readRegister index s = 0 := by
  unfold readRegister
  split
  case h_12 => rfl
  all_goals exact absurd h (by decide)

/-- Settles O12: each assigned index reads its register by the map's own arm. -/
theorem readPortIndexMap : Obligations.ReadPortIndexMap := fun s =>
  ⟨rfl, rfl, rfl, rfl, rfl, rfl, rfl, rfl, rfl, rfl, rfl, fun _ h => readRegister_reserved h s⟩

/-- Settles O15: every value is the one State.reset writes down. -/
theorem resetStateHasTheResetValues : Obligations.ResetStateHasTheResetValues := by
  unfold Obligations.ResetStateHasTheResetValues
  decide

end Sys2Proof.Machine
end

section
/-! The block's ports (20_memory.md): a step performs the first pending host action (R52, R63), a command word runs
what it decodes to (R76), and a register read changes nothing in the block (R53). -/

namespace Sys2Proof.Machine

/-! ## Steps over pending actions (R52, R63) -/

/-- R218, the model's choice: with nothing pending a step holds the state. -/
theorem step_of_nothing_pending {s : State} (h : s.pending = []) : step s = .next s := by
  simp [step, performNext, h]

/-- A step takes exactly the first action off the pending list. -/
theorem step_pending {s t : State} (h : step s = .next t) : t.pending = s.pending.tail := by
  rcases step_cases h with ⟨hnone, rfl⟩ | ⟨action, rest, hpending, hperform⟩
  · rw [hnone, List.tail_nil]
  · rw [hpending, perform_pending hperform, State.setPending_pending, List.tail_cons]

/-- Settles O9: with nothing pending the state stays, and every host action has a next state. -/
theorem everyStepAnswersANextState : Obligations.EveryStepAnswersANextState := by
  intro s
  have hnext : ∃ t, step s = .next t := by
    cases hpending : s.pending with
    | nil => exact ⟨s, step_of_nothing_pending hpending⟩
    | cons action rest =>
      rw [step_of_pending hpending]
      exact perform_next action _
  obtain ⟨t, ht⟩ := hnext
  exact ⟨t, ht, step_pending ht⟩

/-- A step performs the action in front, whatever stands behind it. -/
theorem step_setPending_cons {action : HostAction} {s t : State} (rest : List HostAction)
    (h : perform action s = .next t) :
    step (s.setPending (action :: rest)) = .next (t.setPending rest) :=
  (step_of_pending rfl).trans (perform_setPending (s := s) rest h)

theorem core_run_succ {s t : State} (k : Nat) (h : step s = .next t) :
    Host.Core.run Sys2Proof.core (k + 1) s = Host.Core.run Sys2Proof.core k t := by
  have hcore : Sys2Proof.core.step s = .next t := h
  simp only [Host.Core.run, hcore]

/-- As many steps as there are actions put in front of the pending ones perform exactly those actions. -/
theorem core_run_performs {actions : List HostAction} {s t : State} (h : performAll actions s = .next t) :
    Host.Core.run Sys2Proof.core actions.length (s.setPending (actions ++ s.pending)) = .next t := by
  induction actions generalizing s with
  | nil => exact h
  | cons action later ih =>
    obtain ⟨u, hu⟩ := perform_next action s
    rw [performAll_cons later hu] at h
    calc Host.Core.run Sys2Proof.core (later.length + 1) (s.setPending (action :: (later ++ s.pending)))
        = Host.Core.run Sys2Proof.core later.length (u.setPending (later ++ s.pending)) :=
          core_run_succ _ (step_setPending_cons _ hu)
      _ = Host.Core.run Sys2Proof.core later.length (u.setPending (later ++ u.pending)) := by
          rw [perform_pending hu]
      _ = .next t := ih h

/-- Settles O10, by induction on the list of actions. -/
theorem stepsPerformPendingActionsInOrder : Obligations.StepsPerformPendingActionsInOrder := by
  rintro actions _ s t rfl h
  exact core_run_performs h

/-! ## A command word next on CMD (R76, R206) -/

theorem step_of_pending_command {s : State} {w : Word} {rest : List HostAction}
    (h : s.pending = .command w :: rest) : step s = acceptCommand w (s.setPending rest) :=
  step_of_pending h

/-- Settles O8: the three cases of accepting a word, in the state with the word taken off the pending list. -/
theorem stepRunsTheDecodedCommand : Obligations.StepRunsTheDecodedCommand := by
  intro s w rest hpending
  rw [step_of_pending_command hpending]
  refine ⟨fun herr => ?faulted, fun i herr hdecode _ => ?legal, fun e herr hdecode => ?illegal⟩
  case faulted => exact acceptCommand_faulted (s := s.setPending rest) w herr
  case legal => exact acceptCommand_legal (s := s.setPending rest) herr hdecode
  case illegal => exact acceptCommand_illegal (s := s.setPending rest) herr hdecode

/-! ## A register read next on RD (R53) -/

theorem step_of_pending_read {s : State} {index : BitVec 4} {rest : List HostAction}
    (h : s.pending = .read index :: rest) :
    step s = .next ((s.setPending rest).answerRead (readRegister index s)) := by
  rw [step_of_pending h, perform, readRegister_setPending]

/-- Settles O11: the read's answer is all that is written, and it is 0 for a reserved index (R43). -/
theorem readStepChangesNoBlockState : Obligations.ReadStepChangesNoBlockState :=
  fun s _ _ hpending => ⟨step_of_pending_read hpending, fun hreserved => readRegister_reserved hreserved s⟩

end Sys2Proof.Machine
end

section
/-! Command words (30_encoding.md R70 to R78): the decoder and the encoder row by row, the opcode map (R75), and the
unassigned opcodes (R77). -/

namespace Sys2Proof

/-! ## Decoding, row by row (R75 to R78) -/

/-- The command of `i`'s row whose operands are the fields of `w` (R72 to R74). -/
def Instr.withFieldsOf (w : Word) : Instr → Instr
  | .nop => .nop
  | .crcInit => .crcInit
  | .crcByte _ => .crcByte (fieldB w)
  | .crcFinal => .crcFinal
  | .outByte _ => .outByte (fieldB w)
  | .frTypeb _ => .frTypeb (fieldB w)
  | .frLenh _ => .frLenh (fieldImm16 w)
  | .frLenl _ => .frLenl (fieldImm16 w)
  | .frStart => .frStart
  | .frData _ => .frData (fieldB w)
  | .frEnd => .frEnd
  | .slWh _ => .slWh (fieldImm16 w)
  | .slWl _ => .slWl (fieldImm16 w)
  | .slHh _ => .slHh (fieldImm16 w)
  | .slHl _ => .slHl (fieldImm16 w)
  | .slStart => .slStart
  | .slPix _ _ _ => .slPix (fieldR w) (fieldG w) (fieldB w)

theorem ofFormat_eq_ok {f : Format} {w : Word} {i j : Instr} :
    ofFormat f w i = .ok j ↔ f.reservedClear w = true ∧ i = j := by
  unfold ofFormat
  split <;> simp [*]

/-- R76: with the opcode of a row, only the row's reserved field is left to decide. -/
theorem decode_of_opcode {w : Word} {i : Instr} (hop : opcodeOf w = (rowOf i).op) :
    decode w = ofFormat i.format w (i.withFieldsOf w) := by
  unfold decode
  rw [hop]
  cases i <;> rfl

/-- A word that decodes has the opcode of its command's row. -/
theorem opcodeOf_of_decode {w : Word} {i : Instr} (h : decode w = .ok i) : opcodeOf w = (rowOf i).op := by
  unfold decode at h
  split at h
  case h_18 => cases h
  all_goals
    obtain ⟨-, rfl⟩ := ofFormat_eq_ok.1 h
    assumption

/-- R76: everything a word that decodes says. -/
theorem decode_eq_ok_iff {w : Word} {i : Instr} :
    decode w = .ok i ↔
      opcodeOf w = (rowOf i).op ∧ i.format.reservedClear w = true ∧ i.withFieldsOf w = i := by
  constructor
  · intro h
    have hop := opcodeOf_of_decode h
    rw [decode_of_opcode hop] at h
    exact ⟨hop, ofFormat_eq_ok.1 h⟩
  · rintro ⟨hop, hrest⟩
    rw [decode_of_opcode hop]
    exact ofFormat_eq_ok.2 hrest

/-- The encoder puts every operand where the decoder reads it. -/
@[simp] theorem withFieldsOf_encode (i : Instr) : i.withFieldsOf (encode i) = i := by
  cases i <;> simp [Instr.withFieldsOf, encode]

open Laws.Encoding in
/-- The word of a command has its row's opcode and no reserved bit, whatever the command. -/
theorem encoding_statement (i : Instr) : Statement i := by
  cases i with
  | nop => exact nop
  | crcInit => exact crcInit
  | crcByte b => exact crcByte b
  | crcFinal => exact crcFinal
  | outByte b => exact outByte b
  | frTypeb b => exact frTypeb b
  | frLenh imm => exact frLenh imm
  | frLenl imm => exact frLenl imm
  | frStart => exact frStart
  | frData b => exact frData b
  | frEnd => exact frEnd
  | slWh imm => exact slWh imm
  | slWl imm => exact slWl imm
  | slHh imm => exact slHh imm
  | slHl imm => exact slHl imm
  | slStart => exact slStart
  | slPix r g bl => exact slPix r g bl

@[simp] theorem decode_encode (i : Instr) : decode (encode i) = .ok i := by
  obtain ⟨-, hop, hreserved⟩ := encoding_statement i
  exact decode_eq_ok_iff.2 ⟨hop, hreserved, withFieldsOf_encode i⟩

/-- Settles O2: the encoder writes the row's opcode, clears its reserved field and puts each operand in its field. -/
theorem decodeOfEncodeIsTheCommand : Obligations.DecodeOfEncodeIsTheCommand :=
  fun i _ => decode_encode i

/-- A word with a row's opcode and no reserved bit is the encoding of its own fields. -/
theorem encode_withFieldsOf {w : Word} {i : Instr} (hop : opcodeOf w = (rowOf i).op)
    (hreserved : i.format.reservedClear w = true) : encode (i.withFieldsOf w) = w := by
  cases i with
  | nop | crcInit | crcFinal | frStart | frEnd | slStart => exact commandWord_a hop hreserved
  | crcByte | outByte | frTypeb | frData => exact commandWord_b hop hreserved
  | frLenh | frLenl | slWh | slWl | slHh | slHl => exact commandWord_c hop hreserved
  | slPix => exact commandWord_d hop

/-- Settles O3: the word is its opcode and its fields, because its reserved field is zero. -/
theorem encodeOfDecodeIsTheWord : Obligations.EncodeOfDecodeIsTheWord := by
  intro w i h
  obtain ⟨hop, hreserved, hfields⟩ := decode_eq_ok_iff.1 h
  calc encode i = encode (i.withFieldsOf w) := by rw [hfields]
    _ = w := encode_withFieldsOf hop hreserved

/-! ## The opcode map (R75) -/

/-- R75: no two rows share an opcode. -/
theorem opcodeMap_op_nodup : (opcodeMap.map OpcodeRow.op).Nodup := by decide

theorem row_eq_of_op {row₁ row₂ : OpcodeRow} (h₁ : row₁ ∈ opcodeMap) (h₂ : row₂ ∈ opcodeMap)
    (hop : row₁.op = row₂.op) : row₁ = row₂ :=
  List.inj_on_of_nodup_map opcodeMap_op_nodup h₁ h₂ hop

/-- Every row of the map has a command. -/
theorem exists_rowOf {row : OpcodeRow} (h : row ∈ opcodeMap) : ∃ i, rowOf i = row := by
  have hall : opcodeMap = [.nop, .crcInit, .crcByte 0, .crcFinal, .outByte 0, .frTypeb 0, .frLenh 0, .frLenl 0,
    .frStart, .frData 0, .frEnd, .slWh 0, .slWl 0, .slHh 0, .slHl 0, .slStart, .slPix 0 0 0].map rowOf := rfl
  rw [hall] at h
  obtain ⟨i, -, hi⟩ := List.mem_map.1 h
  exact ⟨i, hi⟩

/-- R70: the mask `[31:24]` keeps the opcode alone. -/
theorem and_opcodeMask (w : Word) : w &&& 0xFF000000#32 = zext32 (opcodeOf w) <<< 24 := by
  apply BitVec.eq_of_getLsbD_eq
  intro i hi
  have hbit : (0xFF000000#32).getLsbD i = decide (24 ≤ i ∧ i < 32) := getLsbD_rangeMask 24 8 hi
  rw [BitVec.getLsbD_and, hbit]
  by_cases hlow : i < 24
  · have hmask : ¬ (24 ≤ i ∧ i < 32) := by omega
    simp [hlow, hmask]
  · have hmask : 24 ≤ i ∧ i < 32 := by omega
    have hfield : i - 24 < 8 := by omega
    have hplace : 24 + (i - 24) = i := by omega
    simp [opcodeOf, hi, hlow, hmask, hfield, hplace]

/-- A word's opcode bits are a row's match value exactly when its opcode is the row's. -/
theorem and_opcodeMask_eq_matchWord_iff (row : OpcodeRow) (w : Word) :
    w &&& 0xFF000000#32 = row.matchWord ↔ opcodeOf w = row.op := by
  rw [and_opcodeMask, OpcodeRow.matchWord]
  refine ⟨fun h => ?_, fun h => by rw [h]⟩
  have hword : commandWord (opcodeOf w) 0#32 = commandWord row.op 0#32 := by
    simpa [commandWord] using h
  simpa using congrArg opcodeOf hword

/-- R75: the mask of a row covers the opcode and the reserved field of its format. -/
theorem mask_eq_or (row : OpcodeRow) : row.mask = 0xFF000000#32 ||| row.format.reservedMask := by
  unfold OpcodeRow.mask
  cases row.format <;> rfl

/-- R75: a word matches a row if and only if it has the row's opcode and a clear reserved field. -/
theorem and_mask_eq_matchWord_iff (row : OpcodeRow) (w : Word) :
    w &&& row.mask = row.matchWord ↔ opcodeOf w = row.op ∧ row.format.reservedClear w = true := by
  rw [← and_opcodeMask_eq_matchWord_iff, Format.reservedClear, beq_iff_eq]
  have hop : row.mask &&& 0xFF000000#32 = 0xFF000000#32 := by rw [mask_eq_or]; cases row.format <;> rfl
  have hreserved : row.mask &&& row.format.reservedMask = row.format.reservedMask := by
    rw [mask_eq_or]; cases row.format <;> rfl
  have hdisjoint : 0xFF000000#32 &&& row.format.reservedMask = 0#32 := by cases row.format <;> rfl
  have hmatch : row.matchWord &&& 0xFF000000#32 = row.matchWord := by
    rw [and_opcodeMask_eq_matchWord_iff]
    simpa [commandWord, OpcodeRow.matchWord] using opcodeOf_commandWord_zero row.op
  constructor
  · intro h
    constructor
    · rw [← hop, ← BitVec.and_assoc, h, hmatch]
    · rw [← hreserved, ← BitVec.and_assoc, h, ← hmatch, BitVec.and_assoc, hdisjoint]
      exact BitVec.and_zero
  · rintro ⟨hw, hclear⟩
    rw [mask_eq_or, BitVec.and_or_distrib_left, hw, hclear]
    exact BitVec.or_zero

/-- The commands of a row are those the decoder answers for the row's opcode with a clear reserved field. -/
theorem exists_decode_eq_ok_iff {row : OpcodeRow} (hrow : row ∈ opcodeMap) (w : Word) :
    (∃ i, decode w = .ok i ∧ rowOf i = row) ↔ opcodeOf w = row.op ∧ row.format.reservedClear w = true := by
  constructor
  · rintro ⟨i, hdecode, rfl⟩
    obtain ⟨hop, hreserved, -⟩ := decode_eq_ok_iff.1 hdecode
    exact ⟨hop, by rwa [rowOf_format]⟩
  · rintro ⟨hop, hreserved⟩
    obtain ⟨i, rfl⟩ := exists_rowOf hrow
    rw [rowOf_format] at hreserved
    refine ⟨i.withFieldsOf w, ?_, by cases i <;> rfl⟩
    rw [decode_of_opcode hop, ofFormat_eq_ok]
    exact ⟨hreserved, rfl⟩

/-- Settles O4: both sides say that the word has the row's opcode and a clear reserved field, and no two rows share
an opcode. -/
theorem wordEncodesARowIffItMatches : Obligations.WordEncodesARowIffItMatches := by
  refine ⟨fun w row hrow => ?_, fun w i _ => rowOf_mem i, fun w row₁ row₂ h₁ h₂ hw₁ hw₂ => ?_⟩
  · rw [and_mask_eq_matchWord_iff, exists_decode_eq_ok_iff hrow]
  · obtain ⟨hop₁, -⟩ := (and_mask_eq_matchWord_iff row₁ w).1 hw₁
    obtain ⟨hop₂, -⟩ := (and_mask_eq_matchWord_iff row₂ w).1 hw₂
    exact row_eq_of_op h₁ h₂ (hop₁.symm.trans hop₂)

/-! ## Unassigned opcodes (R77) -/

/-- R77: the unassigned ranges. -/
theorem assignedOpcode_eq_false_iff {op : Byte} :
    Machine.assignedOpcode op = false ↔
      (0x04 ≤ op.toNat ∧ op.toNat ≤ 0x07) ∨ (0x09 ≤ op.toNat ∧ op.toNat ≤ 0x0F) ∨
        (0x16 ≤ op.toNat ∧ op.toNat ≤ 0x1F) ∨ 0x26 ≤ op.toNat := by
  simp only [Machine.assignedOpcode, Bool.not_eq_false', Bool.or_eq_true, Bool.and_eq_true, decide_eq_true_eq,
    or_assoc]

/-- R77: no row of the map has an opcode of the unassigned ranges. -/
theorem rowOf_op_assigned (i : Instr) : Machine.assignedOpcode (rowOf i).op = true := by
  cases i <;> rfl

/-- R77: a word with an unassigned opcode does not decode. -/
theorem decode_of_unassigned {w : Word} (h : Machine.assignedOpcode (opcodeOf w) = false) :
    ∃ e, decode w = .error e := by
  cases hdecode : decode w with
  | error e => exact ⟨e, rfl⟩
  | ok i => rw [opcodeOf_of_decode hdecode, rowOf_op_assigned] at h; cases h

/-- Settles O5: no row of the opcode map has such an opcode, so the word is illegal. -/
theorem unassignedOpcodesAreIllegal : Obligations.UnassignedOpcodesAreIllegal := by
  intro w s herr hranges
  have hop : Machine.assignedOpcode (opcodeOf w) = false :=
    assignedOpcode_eq_false_iff.2 hranges
  obtain ⟨e, hdecode⟩ := decode_of_unassigned hop
  exact Machine.acceptCommand_illegal herr hdecode

/-! ## Sample words -/

/-- Settles O1, by running the decoder on the twelve words. -/
theorem sampleWordsDecode : Obligations.SampleWordsDecode := by
  unfold Obligations.SampleWordsDecode
  decide

end Sys2Proof
end

section
/-! The assembler (30_encoding.md R81 to R88): the rows of the opcode map with integer operands (R81), the strings of
`FR.TYPE` (R82), and the spec's examples. -/

namespace Sys2Proof.Machine

/-! ## Rows of the opcode map (R81) -/

theorem operandNumbers_map_int {read : AsmOperand → Option (List Nat)} (hread : ∀ n, read (.int n) = some [n])
    (ns : List Nat) : operandNumbers read (ns.map .int) = some ns := by
  have hmap : (ns.map AsmOperand.int).mapM read = some (ns.map ([·])) := by
    induction ns with
    | nil => rfl
    | cons n rest ih => simp [hread, ih]
  rw [operandNumbers, hmap, Option.map_some, ← List.flatMap_def, List.flatMap_singleton']

/-- R81: both readers of a row's operands read an integer as itself. -/
theorem rowOperandNumbers_map_int (row : OpcodeRow) (ns : List Nat) :
    operandNumbers (if row.format == .c then intOperand else byteOperand) (ns.map .int) = some ns := by
  split <;> exact operandNumbers_map_int (fun _ => rfl) ns

theorem assembleRow_ok {row : OpcodeRow} {ns : List Nat} {i : Instr} (hfit : row.format.admits ns = true)
    (hi : instrOf row.op ns = some i) : assembleRow row (ns.map .int) = .ok [i] := by
  simp only [assembleRow, rowOperandNumbers_map_int, hfit, hi, if_true]

theorem assembleRow_refuses {row : OpcodeRow} {ns : List Nat} (hfit : row.format.admits ns = false) :
    assembleRow row (ns.map .int) = .error .operandsDoNotFit := by
  simp only [assembleRow, rowOperandNumbers_map_int, hfit, Bool.false_eq_true, if_false]

theorem admits_a {ns : List Nat} (h : Format.a.admits ns = true) : ns = [] := by
  simpa [Format.admits, Format.operandBounds] using h

theorem admits_b {ns : List Nat} (h : Format.b.admits ns = true) : ∃ v, ns = [v] ∧ v < 256 := by
  match ns with
  | [v] => exact ⟨v, rfl, by simpa [Format.admits, Format.operandBounds] using h⟩

theorem admits_c {ns : List Nat} (h : Format.c.admits ns = true) : ∃ v, ns = [v] ∧ v < 65536 := by
  match ns with
  | [v] => exact ⟨v, rfl, by simpa [Format.admits, Format.operandBounds] using h⟩

theorem admits_d {ns : List Nat} (h : Format.d.admits ns = true) :
    ∃ r g bl, ns = [r, g, bl] ∧ r < 256 ∧ g < 256 ∧ bl < 256 := by
  match ns with
  | [r, g, bl] => exact ⟨r, g, bl, rfl, by simpa [Format.admits, Format.operandBounds] using h⟩

/-- R81: numbers that a command's format admits are the operands of a command of the same row. -/
theorem instrOf_of_admits {i : Instr} {ns : List Nat} (h : i.format.admits ns = true) :
    ∃ j, instrOf (rowOf i).op ns = some j ∧ rowOf j = rowOf i ∧ j.operands = ns := by
  cases i with
  | nop | crcInit | crcFinal | frStart | frEnd | slStart =>
    obtain rfl := admits_a h
    exact ⟨_, rfl, rfl, rfl⟩
  | crcByte | outByte | frTypeb | frData =>
    obtain ⟨v, rfl, hv⟩ := admits_b h
    exact ⟨_, rfl, rfl, by simpa [Instr.operands] using hv⟩
  | frLenh | frLenl | slWh | slWl | slHh | slHl =>
    obtain ⟨v, rfl, hv⟩ := admits_c h
    exact ⟨_, rfl, rfl, by simpa [Instr.operands] using hv⟩
  | slPix =>
    obtain ⟨r, g, bl, rfl, hbounds⟩ := admits_d h
    exact ⟨_, rfl, rfl, by simpa [Instr.operands] using hbounds⟩

/-- Settles O6: a row refuses what its format does not admit, and every admitted list names a command of it. -/
theorem assemblerAcceptsExactlyInRangeOperands : Obligations.AssemblerAcceptsExactlyInRangeOperands := by
  intro row ns hrow
  refine ⟨fun hfit => ?_, assembleRow_refuses⟩
  obtain ⟨i, rfl⟩ := exists_rowOf hrow
  obtain ⟨j, hj, hrowOf, hoperands⟩ := instrOf_of_admits (rowOf_format i ▸ hfit)
  exact ⟨j, assembleRow_ok hfit hj, hrowOf, hoperands⟩

/-! ## FR.TYPE (R82) -/

/-- A line `FR.TYPE text` is read as a pseudo-instruction with a chunk type. -/
theorem assembleLine_frType (text : List Char) :
    assembleLine ("FR.TYPE ".toList ++ text) =
      (parseTypedOperands (' ' :: text)).elim (.error .badOperand) (assemblePseudo .frType) := by
  have hname : assembleLine ("FR.TYPE ".toList ++ text) = assembleNamed "FR.TYPE".toList (' ' :: text) := rfl
  have hcommand : opcodeMap.find? (fun row => sameMnemonic "FR.TYPE".toList row.mnemonic) = none := rfl
  have hpseudo : pseudoMap.find? (fun entry => sameMnemonic "FR.TYPE".toList entry.1) = some ("FR.TYPE", .frType) :=
    rfl
  have hoperands : parsePseudoOperands .frType (' ' :: text) = parseTypedOperands (' ' :: text) := rfl
  simp only [hname, assembleNamed, hcommand, hpseudo, hoperands]
  cases parseTypedOperands (' ' :: text) <;> rfl

theorem isPrintable_iff {c : Char} : isPrintable c = true ↔ 0x20 ≤ c.toNat ∧ c.toNat ≤ 0x7E := by
  simp [isPrintable]

/-- R82: a string of the right length that is no chunk type has an unprintable character. -/
theorem all_isPrintable_eq_false {cs : List Char} (hbad : cs.length ≠ 4 ∨ ∃ c ∈ cs, isPrintable c = false)
    (hlength : cs.length = 4) : cs.all isPrintable = false := by
  simpa using hbad.resolve_left (not_not.2 hlength)

/-- R82: a chunk type is a string of four codes and nothing else. -/
theorem assembleTag_eq_ok {op : AsmOperand} {tag : ChunkTag} (h : assembleTag op = .ok tag) :
    ∃ n0 n1 n2 n3, op = .str [n0, n1, n2, n3] ∧
      tag = ⟨BitVec.ofNat 8 n0, BitVec.ofNat 8 n1, BitVec.ofNat 8 n2, BitVec.ofNat 8 n3⟩ := by
  unfold assembleTag at h
  split at h
  case h_1 n0 n1 n2 n3 =>
    cases h
    exact ⟨n0, n1, n2, n3, rfl, rfl⟩
  all_goals cases h

/-- R82: `FR.TYPE` takes one chunk type and nothing else. -/
theorem assemblePseudo_frType_eq_ok {ops : List AsmOperand} {commands : List Instr}
    (h : assemblePseudo .frType ops = .ok commands) :
    ∃ op tag, ops = [op] ∧ assembleTag op = .ok tag ∧ commands = frType tag := by
  match ops with
  | [op] =>
    have hmap : (assembleTag op).map frType = .ok commands := h
    cases htag : assembleTag op with
    | error e => rw [htag] at hmap; cases hmap
    | ok tag => rw [htag] at hmap; cases hmap; exact ⟨op, tag, rfl, htag, rfl⟩
  | [] => cases h
  | _ :: _ :: _ => cases h

/-- A string literal in which no quote stands where an operand can end is one operand. -/
theorem parseOperands_literal {cs : List Char}
    (h : ∀ before after, cs = before ++ '"' :: after → endsOperand (after ++ ['"']) = false) :
    parseOperands (' ' :: '"' :: (cs ++ ['"'])) =
      if cs.all isPrintable then some [.str (cs.map Char.toNat)] else none := by
  have hpieces : splitOperands .plain [] [] (' ' :: '"' :: (cs ++ ['"'])) = [' ' :: '"' :: (cs ++ ['"'])] :=
    calc splitOperands .plain [] [] (' ' :: '"' :: (cs ++ ['"']))
        = splitOperands .inString ['"', ' '] [] (cs ++ ['"']) := rfl
      _ = [' ' :: '"' :: (cs ++ ['"'])] := by rw [splitOperands_inString cs _ _ h]; simp
  have htrim : trim (' ' :: '"' :: (cs ++ ['"'])) = '"' :: (cs ++ ['"']) := trim_literal cs
  rw [parseOperands, parseOperandList, hpieces]
  simp only [List.map_cons, List.map_nil, htrim]
  cases hall : cs.all isPrintable <;> simp [stringCodes_literal, hall]

/-- A chunk type has no blank to trim before it. -/
theorem trimLeft_blank_string (cs : List Char) : trimLeft (' ' :: '"' :: cs) = '"' :: cs := rfl

/-- R82: four printable characters between quotes are a chunk type, whatever they are. -/
theorem parseTypedOperands_four {c0 c1 c2 c3 : Char} (h : [c0, c1, c2, c3].all isPrintable = true) :
    parseTypedOperands (' ' :: '"' :: c0 :: c1 :: c2 :: c3 :: ['"']) =
      some [.str [c0.toNat, c1.toNat, c2.toNat, c3.toNat]] := by
  rw [parseTypedOperands, trimLeft_blank_string, typeOperand_literal h endsOperand_nil]
  rfl

section
variable {cs : List Char} (hplain : '"' ∉ cs ∨ (',' ∉ cs ∧ ';' ∉ cs))
include hplain

/-- A quote among characters without a separator ends no operand. -/
theorem endsOperand_after_quote {before after : List Char} (hcs : cs = before ++ '"' :: after) :
    endsOperand (after ++ ['"']) = false := by
  have hseparators : ',' ∉ cs ∧ ';' ∉ cs := hplain.resolve_left (by simp [hcs])
  have hcomma : ',' ∉ after := fun h => hseparators.1 (by simp [hcs, h])
  have hsemi : ';' ∉ after := fun h => hseparators.2 (by simp [hcs, h])
  exact endsOperand_eq_false (by simp [hcomma]) (by simp [hsemi]) ⟨'"', by simp, rfl⟩

/-- R82: a string that is not four printable characters is no chunk type. -/
theorem typeOperand_refuses (hbad : cs.length ≠ 4 ∨ ∃ c ∈ cs, isPrintable c = false) :
    typeOperand ('"' :: (cs ++ ['"'])) = none := by
  rw [Option.eq_none_iff_forall_ne_some]
  rintro ⟨op, rest⟩ htype
  obtain ⟨c0, c1, c2, c3, htext, hprintable, hends, -⟩ := typeOperand_some htype
  have hbody : cs ++ ['"'] = [c0, c1, c2, c3] ++ '"' :: rest := by simpa using htext
  rcases List.eq_nil_or_concat rest with rfl | ⟨after, last, rfl⟩
  · obtain rfl : cs = [c0, c1, c2, c3] := List.append_cancel_right hbody
    rw [all_isPrintable_eq_false hbad rfl] at hprintable
    cases hprintable
  · rw [List.concat_eq_append] at hbody hends
    have hsplit : cs ++ ['"'] = ([c0, c1, c2, c3] ++ '"' :: after) ++ [last] := by simpa using hbody
    obtain ⟨hcs, hlast⟩ := List.append_inj' hsplit rfl
    obtain rfl : '"' = last := by simpa using hlast
    rw [endsOperand_after_quote hplain hcs] at hends
    cases hends

/-- R82: such a string is not read as four codes in any other way either. -/
theorem parseTypedOperands_refuses (hbad : cs.length ≠ 4 ∨ ∃ c ∈ cs, isPrintable c = false)
    (n0 n1 n2 n3 : Nat) : parseTypedOperands (' ' :: '"' :: (cs ++ ['"'])) ≠ some [.str [n0, n1, n2, n3]] := by
  have hlist : parseTypedOperands (' ' :: '"' :: (cs ++ ['"'])) = parseOperands (' ' :: '"' :: (cs ++ ['"'])) := by
    rw [parseTypedOperands, trimLeft_blank_string, typeOperand_refuses hplain hbad]
  rw [hlist, parseOperands_literal fun before after => endsOperand_after_quote hplain]
  intro h
  split at h
  · rename_i hprintable
    have hfour : cs.map Char.toNat = [n0, n1, n2, n3] := by simpa using h
    have hlength : cs.length = 4 := by simpa using congrArg List.length hfour
    rw [all_isPrintable_eq_false hbad hlength] at hprintable
    cases hprintable
  · cases h

end

/-- A line `FR.TYPE text` assembles only if its operand is read as a string of four codes. -/
theorem assembleLine_frType_eq_ok {text : List Char} {commands : List Instr}
    (h : assembleLine ("FR.TYPE ".toList ++ text) = .ok commands) :
    ∃ n0 n1 n2 n3, parseTypedOperands (' ' :: text) = some [.str [n0, n1, n2, n3]] ∧
      commands = [.frTypeb (BitVec.ofNat 8 n0), .frTypeb (BitVec.ofNat 8 n1), .frTypeb (BitVec.ofNat 8 n2),
        .frTypeb (BitVec.ofNat 8 n3)] := by
  rw [assembleLine_frType] at h
  cases hparse : parseTypedOperands (' ' :: text) with
  | none => rw [hparse] at h; cases h
  | some ops =>
    rw [hparse] at h
    obtain ⟨op, tag, rfl, htag, rfl⟩ := assemblePseudo_frType_eq_ok h
    obtain ⟨n0, n1, n2, n3, rfl, rfl⟩ := assembleTag_eq_ok htag
    exact ⟨n0, n1, n2, n3, rfl, rfl⟩

/-- Each result of reading a list was read from an element. -/
theorem exists_of_mem_mapM {α β : Type} {f : α → Option β} {as : List α} {bs : List β} {b : β}
    (h : as.mapM f = some bs) (hb : b ∈ bs) : ∃ a ∈ as, f a = some b := by
  induction as generalizing bs with
  | nil => cases h; cases hb
  | cons a rest ih =>
    simp only [List.mapM_cons, Option.bind_eq_bind, Option.bind_eq_some_iff, Option.pure_def,
      Option.some.injEq] at h
    obtain ⟨b', hb', bs', hrest, rfl⟩ := h
    rcases List.mem_cons.1 hb with rfl | hb
    · exact ⟨a, List.mem_cons_self, hb'⟩
    · obtain ⟨x, hx, hfx⟩ := ih hrest hb
      exact ⟨x, List.mem_cons_of_mem a hx, hfx⟩

/-- Every string among the operands of a line has printable codes. -/
theorem parseOperands_str {cs : List Char} {ops : List AsmOperand} {ns : List Nat}
    (h : parseOperands cs = some ops) (hmem : .str ns ∈ ops) : ∀ n ∈ ns, 0x20 ≤ n ∧ n ≤ 0x7E := by
  unfold parseOperands parseOperandList at h
  split at h
  · cases h; cases hmem
  · obtain ⟨piece, -, hpiece⟩ := exists_of_mem_mapM h hmem
    exact parseOperand_str hpiece

/-- The same of the one operand after `FR.TYPE`, which may be read as a chunk type or like any other operand. -/
theorem parseTypedOperands_str {cs : List Char} {ns : List Nat} (h : parseTypedOperands cs = some [.str ns]) :
    ∀ n ∈ ns, 0x20 ≤ n ∧ n ≤ 0x7E := by
  unfold parseTypedOperands at h
  split at h
  case h_1 tag rest htype =>
    obtain ⟨c0, c1, c2, c3, -, hprintable, -, rfl⟩ := typeOperand_some htype
    obtain ⟨_, -, hops⟩ := Option.map_eq_some_iff.1 h
    cases hops
    simpa [isPrintable_iff] using hprintable
  case h_2 => exact parseOperands_str h (List.mem_singleton.2 rfl)

/-- Settles O58: four printable characters are read as a chunk type, any other string without a quote and a separator
is one operand that is no type, and a line assembles only from a string of four codes, which every reader of strings
keeps printable. -/
theorem typeStringsAreFourPrintableCharacters : Obligations.TypeStringsAreFourPrintableCharacters := by
  refine ⟨fun c0 c1 c2 c3 hprintable => ?accepts, fun cs hplain hbad => ?refuses, fun text commands h => ?only⟩
  case accepts =>
    have hline : assembleLine ("FR.TYPE \"".toList ++ [c0, c1, c2, c3] ++ ['"']) = _ :=
      assembleLine_frType ('"' :: c0 :: c1 :: c2 :: c3 :: ['"'])
    rw [hline, parseTypedOperands_four (by simpa [isPrintable_iff] using hprintable)]
    rfl
  case refuses =>
    cases hline : assembleLine ("FR.TYPE \"".toList ++ cs ++ ['"']) with
    | error e => exact ⟨e, rfl⟩
    | ok commands =>
      obtain ⟨n0, n1, n2, n3, hparse, -⟩ := assembleLine_frType_eq_ok (text := '"' :: (cs ++ ['"'])) hline
      have hbad' : cs.length ≠ 4 ∨ ∃ c ∈ cs, isPrintable c = false := by
        simpa [← Bool.not_eq_true, isPrintable_iff] using hbad
      exact absurd hparse (parseTypedOperands_refuses hplain hbad' n0 n1 n2 n3)
  case only =>
    obtain ⟨n0, n1, n2, n3, hparse, rfl⟩ := assembleLine_frType_eq_ok h
    exact ⟨n0, n1, n2, n3, parseTypedOperands_str hparse, rfl⟩

/-! ## The examples (R81 to R88) -/

/-- Settles O7, by running the assembler on the lines. -/
theorem assemblerExamples : Obligations.AssemblerExamples := by
  unfold Obligations.AssemblerExamples
  decide

end Sys2Proof.Machine
end

section
/-! The pseudo-instructions on the block (30_encoding.md R82 to R85): the states they end in. -/

namespace Sys2Proof.Machine

/-! ## Lists of commands -/

/-- Without a fault, the word of a command runs the command. -/
theorem issue_cons {i : Instr} {s t : State} (rest : List Instr) (h : exec i s = .next t)
    (herr : s.err = false) : issue (i :: rest) s = issue rest t :=
  performAll_cons _ ((acceptCommand_legal herr (decode_encode i)).trans h)

/-! ## FR.TYPE (R82) -/

/-- R124: ASCII characters are shifted into TYPE one by one, while four at most are loaded. -/
theorem issue_frTypebs {bs : List Byte} {s : State} (herr : s.err = false)
    (hascii : ∀ b ∈ bs, b.toNat ≤ 0x7F) (hcount : s.tcnt.toNat + bs.length ≤ 4) :
    issue (bs.map .frTypeb) s =
      .next ((s.setType (bs.foldl shiftInByte s.type)).setTcnt (s.tcnt + BitVec.ofNat 3 bs.length)) := by
  induction bs generalizing s with
  | nil => simp [State.setType, State.setTcnt]
  | cons b rest ih =>
    obtain ⟨hb, hrest⟩ := List.forall_mem_cons.1 hascii
    rw [List.length_cons] at hcount
    have hroom : s.tcnt ≠ 4 := by bv_omega
    have hexec : exec (.frTypeb b) s = .next ((s.setType (shiftInByte s.type b)).setTcnt (s.tcnt + 1)) := by
      rw [exec_frTypeb, if_neg hroom, if_neg (Nat.not_lt.2 hb)]
    have hcount' : (s.tcnt + 1).toNat + rest.length ≤ 4 := by bv_omega
    have hsum : s.tcnt + 1 + BitVec.ofNat 3 rest.length = s.tcnt + BitVec.ofNat 3 (rest.length + 1) := by
      bv_omega
    rw [List.map_cons, issue_cons _ hexec herr,
      ih (s := (s.setType (shiftInByte s.type b)).setTcnt (s.tcnt + 1)) herr hrest hcount', State.setTcnt_tcnt, hsum]
    rfl

/-- R24: four shifted-in characters fill TYPE, whatever it held. -/
theorem foldl_shiftInByte_bytes (v : Word) (t : ChunkTag) : t.bytes.foldl shiftInByte v = t.word := by
  simp only [ChunkTag.bytes, List.foldl_cons, List.foldl_nil, shiftInByte, ChunkTag.word,
    BitVec.shiftLeft_or_distrib, ← BitVec.shiftLeft_add]
  simp

theorem issue_frType {t : ChunkTag} {s : State} (herr : s.err = false) (hascii : t.ascii = true)
    (hcount : s.tcnt = 0) : issue (frType t) s = .next ((s.setType t.word).setTcnt 4) := by
  have hbytes : ∀ b ∈ t.bytes, b.toNat ≤ 0x7F := by simpa [ChunkTag.ascii] using hascii
  have hroom : s.tcnt.toNat + t.bytes.length ≤ 4 := by simp [hcount, ChunkTag.bytes]
  have hfour : s.tcnt + BitVec.ofNat 3 t.bytes.length = 4 := by simp [hcount, ChunkTag.bytes]
  rw [frType, issue_frTypebs herr hbytes hroom, foldl_shiftInByte_bytes, hfour]

/-! ## FR.LEN (R83) and SL.DIM (R84) -/

@[simp] theorem State.setLen_setLen (s : State) (v v' : Word) : (s.setLen v).setLen v' = s.setLen v' := rfl

@[simp] theorem State.setW_setW (s : State) (v v' : Word) : (s.setW v).setW v' = s.setW v' := rfl

@[simp] theorem State.setH_setH (s : State) (v v' : Word) : (s.setH v).setH v' = s.setH v' := rfl

theorem issue_frLen (n : Word) {s : State} (herr : s.err = false) : issue (frLen n) s = .next (s.setLen n) := by
  have hlow : exec (.frLenl (lowerHalf n)) (s.setLen (loadUpper s.len (upperHalf n))) = .next (s.setLen n) := by
    simp [exec_frLenl]
  rw [frLen, issue_cons _ (exec_frLenh _ s) herr, issue_cons _ hlow herr, issue_nil]

/-- R84: the first two commands of `SL.DIM` load W. -/
theorem issue_loadW (width : Word) (rest : List Instr) {s : State} (herr : s.err = false) (hidle : s.sph = .idle) :
    issue (.slWh (upperHalf width) :: .slWl (lowerHalf width) :: rest) s = issue rest (s.setW width) := by
  have hhigh : exec (.slWh (upperHalf width)) s = .next (s.setW (loadUpper s.w (upperHalf width))) := by
    simp [exec_slWh, hidle]
  have hlow : exec (.slWl (lowerHalf width)) (s.setW (loadUpper s.w (upperHalf width))) = .next (s.setW width) := by
    simp [exec_slWl, hidle]
  rw [issue_cons _ hhigh herr, issue_cons _ hlow herr]

/-- R84: the last two commands of `SL.DIM` load H. -/
theorem issue_loadH (height : Word) (rest : List Instr) {s : State} (herr : s.err = false) (hidle : s.sph = .idle) :
    issue (.slHh (upperHalf height) :: .slHl (lowerHalf height) :: rest) s = issue rest (s.setH height) := by
  have hhigh : exec (.slHh (upperHalf height)) s = .next (s.setH (loadUpper s.h (upperHalf height))) := by
    simp [exec_slHh, hidle]
  have hlow : exec (.slHl (lowerHalf height)) (s.setH (loadUpper s.h (upperHalf height))) = .next (s.setH height) := by
    simp [exec_slHl, hidle]
  rw [issue_cons _ hhigh herr, issue_cons _ hlow herr]

theorem issue_slDim (width height : Word) {s : State} (herr : s.err = false) (hidle : s.sph = .idle) :
    issue (slDim width height) s = .next ((s.setW width).setH height) := by
  rw [slDim, issue_loadW width _ herr hidle, issue_loadH height _ (s := s.setW width) herr hidle, issue_nil]

/-! ## OUT.SIG (R85) -/

theorem issue_outBytes (bs : List Byte) {s : State} (herr : s.err = false) (hidle : s.fph = .idle) :
    issue (bs.map .outByte) s = .next (s.emitOut bs) := by
  induction bs generalizing s with
  | nil => simp [State.emitOut]
  | cons b rest ih =>
    have hexec : exec (.outByte b) s = .next (s.emitOut [b]) := by simp [exec_outByte, hidle]
    rw [List.map_cons, issue_cons _ hexec herr, ih (s := s.emitOut [b]) herr hidle]
    simp [State.emitOut]

/-- R85, R181. -/
theorem issue_outSig {s : State} (herr : s.err = false) (hidle : s.fph = .idle) :
    issue outSig s = .next (s.emitOut pngSignature) :=
  issue_outBytes pngSignature herr hidle

/-- Settles O33: each clause is the end state of one pseudo-instruction. -/
theorem pseudoInstructionsLoadTheirOperands : Obligations.PseudoInstructionsLoadTheirOperands :=
  fun _ herr => ⟨fun _ hascii hcount => issue_frType herr hascii hcount, fun n => issue_frLen n herr,
    fun width height hidle => issue_slDim width height herr hidle, fun hidle => issue_outSig herr hidle⟩

end Sys2Proof.Machine
end

section
/-! The CRC-32 generator (40_crc.md): the byte update is linear in the register (R101), so its table form (R109) and its
mirror image agree with it, and the commands compute the source's `crc32` (R105 to R108). -/

namespace Sys2Proof.Machine

/-! ## The rounds are linear (R101) -/

/-- R101: what a round XORs in beside the shifted register, for the bit shifted out. -/
def crcFeedback (out : Bool) : Word := if out then crcPolynomial else 0

theorem crcRound_eq_xor (c : Word) : crcRound c = (c >>> 1) ^^^ crcFeedback (c.getLsbD 0) := by
  unfold crcRound crcFeedback
  split
  · rfl
  · exact BitVec.xor_zero.symm

theorem crcFeedback_xor (p q : Bool) : crcFeedback (p ^^ q) = crcFeedback p ^^^ crcFeedback q := by
  cases p <;> cases q <;> rfl

theorem crcRound_xor (c d : Word) : crcRound (c ^^^ d) = crcRound c ^^^ crcRound d := by
  rw [crcRound_eq_xor, crcRound_eq_xor, crcRound_eq_xor, BitVec.ushiftRight_xor_distrib, BitVec.getLsbD_xor,
    crcFeedback_xor]
  ac_rfl

theorem crcRounds_xor (n : Nat) (c d : Word) : crcRounds n (c ^^^ d) = crcRounds n c ^^^ crcRounds n d := by
  induction n generalizing c d with
  | zero => rfl
  | succ n ih => rw [crcRounds, crcRound_xor, ih]; rfl

/-- While only zeros are shifted out, the rounds only shift. -/
theorem crcRounds_of_low_clear {n : Nat} {c : Word} (h : ∀ i < n, c.getLsbD i = false) :
    crcRounds n c = c >>> n := by
  induction n generalizing c with
  | zero => simp [crcRounds]
  | succ n ih =>
    have hrest : ∀ i < n, (c >>> 1).getLsbD i = false := fun i hi => by
      rw [BitVec.getLsbD_ushiftRight]; exact h _ (by omega)
    have hround : crcRound c = c >>> 1 := by
      rw [crcRound_eq_xor, h 0 n.succ_pos]; exact BitVec.xor_zero
    rw [crcRounds, hround, ih hrest, ← BitVec.shiftRight_add, Nat.add_comm 1]

/-! ## The table form (R109) -/

/-- A register is its upper 24 bits and its low byte. -/
theorem eq_xor_low_byte (v : Word) : v = ((v >>> 8) <<< 8) ^^^ zext32 (v.extractLsb' 0 8) := by
  apply BitVec.eq_of_getLsbD_eq
  intro i hi
  by_cases h : i < 8
  · simp [h, hi]
  · have hplace : 8 + (i - 8) = i := by omega
    simp [h, hi, hplace]

/-- The byte of an update enters below bit 8. -/
theorem ushiftRight_zext32 (b : Byte) : zext32 b >>> 8 = 0#32 := by
  apply BitVec.eq_of_getLsbD_eq
  intro i hi
  simp

theorem ushiftRight_shiftLeft_ushiftRight (v : Word) : ((v >>> 8) <<< 8) >>> 8 = v >>> 8 := by
  apply BitVec.eq_of_getLsbD_eq
  intro i hi
  by_cases h : 8 + i < 32
  · simp [h]
  · simp [h, BitVec.getLsbD_of_ge v (8 + i) (by omega)]

/-- Eight rounds shift the upper 24 bits down and turn the low byte into its table entry. -/
theorem crcRounds_eight (v : Word) : crcRounds 8 v = (v >>> 8) ^^^ crcTable (v.extractLsb' 0 8) := by
  have hlow : ∀ i < 8, ((v >>> 8) <<< 8).getLsbD i = false := fun i hi => by simp [hi]
  calc crcRounds 8 v
      = crcRounds 8 (((v >>> 8) <<< 8) ^^^ zext32 (v.extractLsb' 0 8)) := by rw [← eq_xor_low_byte]
    _ = (v >>> 8) ^^^ crcRounds 8 (zext32 (v.extractLsb' 0 8)) := by
      rw [crcRounds_xor, crcRounds_of_low_clear hlow, ushiftRight_shiftLeft_ushiftRight]
    _ = (v >>> 8) ^^^ crcTable (v.extractLsb' 0 8) := by rw [crcTable, crcUpd]; simp

/-- R109: the low byte of the folded register chooses the table entry, and the upper bits are shifted down. -/
theorem crcUpd_eq_table (c : Word) (b : Byte) :
    crcUpd c b = (c >>> 8) ^^^ crcTable ((c ^^^ zext32 b).extractLsb' 0 8) := by
  have hupper : (c ^^^ zext32 b) >>> 8 = c >>> 8 := by
    rw [BitVec.ushiftRight_xor_distrib, ushiftRight_zext32, BitVec.xor_zero]
  rw [crcUpd, crcRounds_eight, hupper]

/-- Settles O28: the rounds are linear, and they only shift the part of the register above the low byte. -/
theorem crcTableFormEqualsTheRounds : Obligations.CrcTableFormEqualsTheRounds :=
  ⟨crcUpd_eq_table, fun _ => rfl, by decide, by decide, by decide, by decide, by decide⟩

/-! ## The mirror image (R100) -/

theorem reverse_xor (c d : Word) : (c ^^^ d).reverse = c.reverse ^^^ d.reverse := by
  ext i hi
  simp [BitVec.getElem_reverse, BitVec.getMsbD_xor]

theorem reverse_ushiftRight_one (c : Word) : (c >>> 1).reverse = c.reverse <<< 1 := by
  apply BitVec.eq_of_getLsbD_eq
  intro i hi
  rw [BitVec.getLsbD_reverse, BitVec.getMsbD_ushiftRight, BitVec.getLsbD_shiftLeft, BitVec.getLsbD_reverse]
  simp [hi]

/-- R100: 0x04C11DB7 is the polynomial constant bit-reversed. -/
theorem reverse_crcPolynomial : crcPolynomial.reverse = 0x04C11DB7 := by decide +kernel

/-- A byte at the bottom of a word is, bit-reversed, the reversed byte at the top. -/
theorem reverse_zext32 (b : Byte) : (zext32 b).reverse = zext32 b.reverse <<< 24 := by
  apply BitVec.eq_of_getLsbD_eq
  intro i hi
  rw [BitVec.getLsbD_reverse, BitVec.getLsbD_shiftLeft, BitVec.getLsbD_setWidth, BitVec.getLsbD_reverse]
  by_cases h : i < 24
  · have hhigh : 8 ≤ 31 - i := by omega
    simp [h, hi, BitVec.getMsbD, hhigh]
  · have hplace : 31 - i = 7 - (i - 24) := by omega
    have hfield : i - 24 < 8 := by omega
    have hword : i - 24 < 32 := by omega
    have hmirror : 7 - (i - 24) < 32 := by omega
    simp [h, hi, BitVec.getMsbD, hplace, hfield, hword, hmirror]

theorem reverse_crcRound (c : Word) : (crcRound c).reverse = crcMirrorRound c.reverse := by
  rw [crcRound, crcMirrorRound, BitVec.msb_reverse]
  cases c.getLsbD 0
  · exact reverse_ushiftRight_one c
  · calc ((c >>> 1) ^^^ crcPolynomial).reverse
        = (c >>> 1).reverse ^^^ crcPolynomial.reverse := reverse_xor _ _
      _ = (c.reverse <<< 1) ^^^ 0x04C11DB7 := by rw [reverse_ushiftRight_one, reverse_crcPolynomial]

theorem reverse_crcRounds (n : Nat) (c : Word) : (crcRounds n c).reverse = crcMirrorRounds n c.reverse := by
  induction n generalizing c with
  | zero => rfl
  | succ n ih => rw [crcRounds, ih, reverse_crcRound]; rfl

/-- Settles O30: bit-reversal takes the register, the byte and each round to their mirror images. -/
theorem crcIsTheMirroredPolynomial : Obligations.CrcIsTheMirroredPolynomial := by
  intro c b
  rw [crcUpd, reverse_crcRounds, reverse_xor, reverse_zext32, crcMirrorUpd]

/-! ## The commands outside a frame (R105 to R107) -/

section
variable {s : State} (hidle : s.fph = .idle)
include hidle

theorem exec_crcInit_idle : exec .crcInit s = .next (s.setCrc crcInitial) := by
  simp [exec_crcInit, hidle]

theorem exec_crcByte_idle (b : Byte) : exec (.crcByte b) s = .next (s.setCrc (crcUpd s.crc b)) := by
  simp [exec_crcByte, hidle]

theorem exec_crcFinal_idle : exec .crcFinal s = .next (s.setRes (crcComplement s.crc)) := by
  simp [exec_crcFinal, hidle]

end

/-! ## CRC.OF (R108) -/

/-- R86, R106: `CRC.BYTES` folds its bytes into CRC. -/
theorem issue_crcBytes (bs : List Byte) {s : State} (herr : s.err = false) (hidle : s.fph = .idle) :
    issue (crcBytes bs) s = .next (s.setCrc (crcFold s.crc bs)) := by
  induction bs generalizing s with
  | nil => rfl
  | cons b rest ih =>
    have hrest : issue (crcBytes rest) (s.setCrc (crcUpd s.crc b)) = _ := ih herr hidle
    rw [crcBytes, List.map_cons, issue_cons _ (exec_crcByte_idle hidle b) herr, ← crcBytes, hrest]
    rfl

theorem issue_crcOf (bs : List Byte) {s : State} (herr : s.err = false) (hidle : s.fph = .idle) :
    issue (crcOf bs) s = .next ((s.setCrc (crcFold crcInitial bs)).setRes (crc32 bs)) := by
  have hbytes : issue (crcBytes bs) (s.setCrc crcInitial) = .next (s.setCrc (crcFold crcInitial bs)) :=
    issue_crcBytes bs herr hidle
  have hfinal : exec .crcFinal (s.setCrc (crcFold crcInitial bs)) = _ := exec_crcFinal_idle hidle
  rw [crcOf, List.append_assoc, List.singleton_append, issue_cons _ (exec_crcInit_idle hidle) herr,
    issue_append _ hbytes, issue_cons _ hfinal herr, issue_nil]
  rfl

/-- Settles O31, by the end state of `CRC.OF`: complementing twice gives the running register back. -/
theorem crcOfComputesCrc32 : Obligations.CrcOfComputesCrc32 := by
  intro bs s herr hidle
  have hcrc : crc32 bs ^^^ 0xFFFFFFFF = crcFold crcInitial bs := crcComplement_crcComplement _
  rw [issue_crcOf bs herr hidle, hcrc]
  rfl

/-- Settles O29, by running the rounds on the nine bytes. -/
theorem crcCheckValues : Obligations.CrcCheckValues := by
  unfold Obligations.CrcCheckValues
  decide +kernel

/-! ## The commands one by one (R105 to R107) -/

/-- R78: with an assigned opcode, a set reserved bit raises ILLEGAL_CMD. -/
theorem illegalUnlessZero_of_reservedClear_iff (i : Instr) {n : Nat} {reserved : Word → BitVec n}
    (h : ∀ w, i.format.reservedClear w = true ↔ reserved w = 0) : IllegalUnlessZero (rowOf i).op reserved := by
  intro w s herr hop hne
  have hdecode : decode w = .error (.reservedBits (opcodeOf w)) := by
    rw [decode_of_opcode hop, ofFormat, if_neg (mt (h w).1 hne)]
  exact acceptCommand_illegal herr hdecode

/-- R100: the final XOR complements every bit. -/
theorem crcComplement_eq_not (c : Word) : crcComplement c = ~~~c := BitVec.xor_allOnes

/-- Settles O42: the one check is for an open frame, and the one write is CRC. -/
theorem crcInitStartsAChecksum : Obligations.CrcInitStartsAChecksum := by
  refine ⟨rfl, illegalUnlessZero_of_reservedClear_iff .crcInit reservedClear_a,
    fun s => ⟨fun hopen => ?_, exec_crcInit_idle⟩⟩
  rw [exec_crcInit, if_pos hopen]
  rfl

/-- Settles O43: the one check is for an open frame, the one write is the byte update, and the four values are run. -/
theorem crcByteFoldsOneByte : Obligations.CrcByteFoldsOneByte := by
  have hword : ∀ b : Byte, encode (.crcByte b) = 0x02000000 ||| zext32 b := fun _ => rfl
  refine ⟨hword, illegalUnlessZero_of_reservedClear_iff (.crcByte 0) reservedClear_b,
    fun b s => ⟨fun hopen => ?_, fun hidle => exec_crcByte_idle hidle b⟩, by decide, by decide, by decide, by decide⟩
  rw [exec_crcByte, if_pos hopen, hword]
  rfl

/-- Settles O44: the one check is for an open frame, and the one write is RES, where XOR with all ones complements. -/
theorem crcFinalPublishesTheComplement : Obligations.CrcFinalPublishesTheComplement := by
  have hidle : ∀ s : State, s.fph = .idle → exec .crcFinal s = .next (s.setRes (~~~s.crc)) := fun s hidle => by
    rw [exec_crcFinal_idle hidle, crcComplement_eq_not]
  refine ⟨rfl, illegalUnlessZero_of_reservedClear_iff .crcFinal reservedClear_a,
    fun s => ⟨fun hopen => ?_, hidle s, fun h hcrc => ?_⟩⟩
  · rw [exec_crcFinal, if_pos hopen]
    rfl
  · have hvalue : ~~~s.crc = 0xCBF43926 := by rw [hcrc]; decide
    rw [hidle s h, hvalue]
    rfl

end Sys2Proof.Machine
end

section
/-! Runs without a fault (60_exceptions.md R206), and the two halves of the block, which do not interfere
(92_eei_decisions.md D30). -/

namespace Sys2Proof.Machine

/-! ## Runs without a fault -/

/-- R206: a faulted block ignores every command. -/
theorem issue_faulted {s : State} (commands : List Instr) (h : s.err = true) : issue commands s = .next s := by
  induction commands with
  | nil => rfl
  | cons i rest ih => exact (performAll_cons (action := .command (encode i)) _ (acceptCommand_faulted _ h)).trans ih

/-- Only a block without a fault ends without one. -/
theorem err_eq_false_of_issue {commands : List Instr} {s t : State} (h : issue commands s = .next t)
    (hend : t.err = false) : s.err = false := by
  cases hs : s.err with
  | false => rfl
  | true =>
    rw [issue_faulted commands hs] at h
    cases h
    rw [← hs, hend]

/-- A command whose checks pass performs its writes. -/
theorem exec_of_pass {i : Instr} {s : State} (hpass : firstFailing (commandChecks i s) = none) :
    exec i s = .next (commandWrites i s) := by
  rw [exec_eq_checked, checked, hpass]

theorem issue_cons_of_pass {i : Instr} {s : State} (rest : List Instr) (herr : s.err = false)
    (hpass : firstFailing (commandChecks i s) = none) : issue (i :: rest) s = issue rest (commandWrites i s) :=
  issue_cons rest (exec_of_pass hpass) herr

/-- In a run without a fault the first command passes its checks, and the rest runs after its writes. -/
theorem pass_of_issue_cons {i : Instr} {rest : List Instr} {s t : State} (h : issue (i :: rest) s = .next t)
    (hend : t.err = false) :
    firstFailing (commandChecks i s) = none ∧ issue rest (commandWrites i s) = .next t := by
  obtain ⟨u, hu⟩ := exec_next i s
  rw [issue_cons rest hu (err_eq_false_of_issue h hend)] at h
  rcases exec_cases hu with ⟨c, -, rfl⟩ | ⟨hpass, rfl⟩
  · cases err_eq_false_of_issue h hend
  · exact ⟨hpass, h⟩

theorem exists_of_issue_append {as bs : List Instr} {s t : State} (h : issue (as ++ bs) s = .next t) :
    ∃ u, issue as s = .next u ∧ issue bs u = .next t := by
  obtain ⟨u, hu⟩ := issue_next as s
  exact ⟨u, hu, issue_append bs hu ▸ h⟩

/-! ## The two halves of the block (D30) -/

@[simp] theorem State.withPrependerOf_self (s : State) : s.withPrependerOf s = s := rfl

section
variable {i : Instr} (hi : ofPrepender i = false)
include hi

theorem commandChecks_withPrependerOf (s p : State) :
    commandChecks i (s.withPrependerOf p) = commandChecks i s := by
  cases i with
  | slWh | slWl | slHh | slHl | slStart | slPix => cases hi
  | _ => rfl

/-- A command outside the prepender does not read the prepender. -/
theorem commandWrites_withPrependerOf (s p : State) :
    commandWrites i (s.withPrependerOf p) = (commandWrites i s).withPrependerOf p := by
  cases i with
  | slWh | slWl | slHh | slHl | slStart | slPix => cases hi
  | _ => rfl

/-- A command outside the prepender does not write the prepender. -/
theorem withPrependerOf_commandWrites (s f : State) :
    f.withPrependerOf (commandWrites i s) = f.withPrependerOf s := by
  cases i with
  | slWh | slWl | slHh | slHl | slStart | slPix => cases hi
  | _ => rfl

end

/-- R159: the position is the prepender's alone. -/
theorem advancePosition_withPrependerOf (f s : State) :
    advancePosition (f.withPrependerOf s) = f.withPrependerOf (advancePosition s) := by
  by_cases hx : s.x + 1 = s.w
  · by_cases hy : s.y + 1 = s.h
    · rw [advancePosition_last hx hy, advancePosition_last (s := f.withPrependerOf s) hx hy]; rfl
    · rw [advancePosition_row hx hy, advancePosition_row (s := f.withPrependerOf s) hx hy]; rfl
  · rw [advancePosition_mid hx, advancePosition_mid (s := f.withPrependerOf s) hx]; rfl

section
variable {i : Instr} (hi : ofPrepender i = true)
include hi

theorem commandChecks_prepender (f s : State) :
    commandChecks i (f.withPrependerOf s) = commandChecks i s := by
  cases i with
  | slWh | slWl | slHh | slHl | slStart | slPix => rfl
  | _ => cases hi

/-- A prepender command reads the prepender alone. -/
theorem commandWrites_prepender (f s : State) :
    commandWrites i (f.withPrependerOf s) = f.withPrependerOf (commandWrites i s) := by
  cases i with
  | slPix r g bl => exact advancePosition_withPrependerOf f (s.emitRaw (pixelBytes s r g bl))
  | slWh | slWl | slHh | slHl | slStart => rfl
  | _ => cases hi

/-- A prepender command writes the prepender alone. -/
theorem commandWrites_prepender_withPrependerOf (s p : State) :
    (commandWrites i s).withPrependerOf p = s.withPrependerOf p := by
  cases i with
  | slPix r g bl => simp [commandWrites, State.withPrependerOf]
  | slWh | slWl | slHh | slHl | slStart => rfl
  | _ => cases hi

end

/-- D30: the commands outside the prepender run alike beside any prepender `p`. -/
theorem issue_filter_not_ofPrepender (p : State) {commands : List Instr} {s t : State}
    (h : issue commands s = .next t) (hend : t.err = false) :
    issue (commands.filter fun i => !ofPrepender i) (s.withPrependerOf p) = .next (t.withPrependerOf p) := by
  induction commands generalizing s with
  | nil =>
    cases h
    rfl
  | cons i rest ih =>
    have herr : s.err = false := err_eq_false_of_issue h hend
    obtain ⟨hpass, hrest⟩ := pass_of_issue_cons h hend
    cases hi : ofPrepender i with
    | true =>
      rw [List.filter_cons_of_neg (by simp [hi]), ← commandWrites_prepender_withPrependerOf hi s p]
      exact ih hrest
    | false =>
      rw [List.filter_cons_of_pos (by simp [hi]),
        issue_cons_of_pass (s := s.withPrependerOf p) _ herr (commandChecks_withPrependerOf hi s p ▸ hpass),
        commandWrites_withPrependerOf hi]
      exact ih hrest

/-- D30: the prepender's commands run alike beside any framer `f`. -/
theorem issue_filter_ofPrepender {f : State} (hf : f.err = false) {commands : List Instr} {s t : State}
    (h : issue commands s = .next t) (hend : t.err = false) :
    issue (commands.filter ofPrepender) (f.withPrependerOf s) = .next (f.withPrependerOf t) := by
  induction commands generalizing s with
  | nil =>
    cases h
    rfl
  | cons i rest ih =>
    obtain ⟨hpass, hrest⟩ := pass_of_issue_cons h hend
    cases hi : ofPrepender i with
    | true =>
      rw [List.filter_cons_of_pos hi,
        issue_cons_of_pass (s := f.withPrependerOf s) _ hf (commandChecks_prepender hi f s ▸ hpass),
        commandWrites_prepender hi]
      exact ih hrest
    | false =>
      rw [List.filter_cons_of_neg (by simp [hi]), ← withPrependerOf_commandWrites hi s f]
      exact ih hrest

/-- Settles O24: each half runs alike beside any other half, in particular beside the one of the start state. -/
theorem prependerAndFramerDoNotInterfere : Obligations.PrependerAndFramerDoNotInterfere :=
  fun _ s _ herr h hend => ⟨issue_filter_not_ofPrepender s h hend, issue_filter_ofPrepender herr h hend⟩

end Sys2Proof.Machine
end

section
/-! The chunk framer (41_framer.md): what a frame puts on OUT (R121, R130, R131), and its commands one by one (R123 to
R129). -/

namespace Sys2Proof.Machine

/-! ## An open frame (R121, R128) -/

section
variable {s : State}

theorem exec_frStart_of_idle (hidle : s.fph = .idle) (hcount : s.tcnt = 4) :
    exec .frStart s = .next (openFrame s) := by
  simp [exec_frStart, hidle, hcount]

theorem exec_frData_of_owed (b : Byte) (hopen : s.fph = .payload) (howed : s.rem ≠ 0) :
    exec (.frData b) s = .next (((s.emitOut [b]).setCrc (crcUpd s.crc b)).setRem (s.rem - 1)) := by
  rw [exec_frData, if_neg (by simp [hopen]), if_neg howed]

theorem exec_frEnd_of_paid (hopen : s.fph = .payload) (hpaid : s.rem = 0) :
    exec .frEnd s = .next (closeFrame s) := by
  simp [exec_frEnd, hopen, hpaid]

end

/-- From `s` to `t` an open frame has taken the bytes of `payload` and no others. -/
structure PayloadSent (s : State) (payload : List Byte) (t : State) : Prop where
  fph : t.fph = .payload
  out : t.out = s.out ++ payload
  crc : t.crc = crcFold s.crc payload
  rem : t.rem.toNat + payload.length = s.rem.toNat

theorem PayloadSent.refl {s : State} (hopen : s.fph = .payload) : PayloadSent s [] s :=
  ⟨hopen, (List.append_nil _).symm, rfl, rfl⟩

theorem PayloadSent.trans {s t u : State} {p q : List Byte} (hst : PayloadSent s p t) (htu : PayloadSent t q u) :
    PayloadSent s (p ++ q) u where
  fph := htu.fph
  out := by rw [htu.out, hst.out, List.append_assoc]
  crc := by rw [htu.crc, hst.crc, crcFold_append]
  rem := by
    have := hst.rem
    have := htu.rem
    rw [List.length_append]
    omega

/-- R128: REM does not wrap, because a frame that owes nothing takes no byte. -/
theorem PayloadSent.frData {s : State} (b : Byte) (hopen : s.fph = .payload) (howed : s.rem ≠ 0) :
    PayloadSent s [b] (commandWrites (.frData b) s) where
  fph := hopen
  out := rfl
  crc := rfl
  rem := by
    simp only [commandWrites, State.setRem_rem, List.length_singleton]
    bv_omega

/-- Every command that an open frame accepts, but `FR.END`, sends payload bytes: `FR.DATA` one, the others none. -/
theorem exists_payloadSent_of_pass {i : Instr} {s : State} (hopen : s.fph = .payload) (hi : i ≠ .frEnd)
    (hpass : firstFailing (commandChecks i s) = none) : ∃ p, PayloadSent s p (commandWrites i s) := by
  rw [firstFailing_eq_none] at hpass
  cases i with
  | crcInit | crcByte | crcFinal | outByte | frStart => simp [commandChecks, frameOpen, hopen] at hpass
  | frEnd => exact absurd rfl hi
  | frData b =>
    have howed : s.rem ≠ 0 := by simpa [commandChecks, noFrame, hopen] using hpass
    exact ⟨[b], .frData b hopen howed⟩
  | nop | frTypeb | frLenh | frLenl | slWh | slWl | slHh | slHl | slStart | slPix =>
    exact ⟨[], by constructor <;> simp [commandWrites, hopen]⟩

theorem exists_payloadSent_of_issue {commands : List Instr} {s t : State} (hopen : s.fph = .payload)
    (hend : Instr.frEnd ∉ commands) (h : issue commands s = .next t) (herr : t.err = false) :
    ∃ p, PayloadSent s p t := by
  induction commands generalizing s with
  | nil =>
    cases h
    exact ⟨[], .refl hopen⟩
  | cons i rest ih =>
    obtain ⟨hi, hrest⟩ := not_or.1 (List.mem_cons.not.1 hend)
    obtain ⟨hpass, h⟩ := pass_of_issue_cons h herr
    obtain ⟨p, hp⟩ := exists_payloadSent_of_pass hopen (Ne.symm hi) hpass
    obtain ⟨q, hq⟩ := ih hp.fph hrest h
    exact ⟨p ++ q, hp.trans hq⟩

/-- Settles O26: the frame opens with LEN owed and CRC seeded with the type, every byte sent is folded in and paid,
and the frame closes only with nothing owed. -/
theorem everyClosedFrameIsAChunk : Obligations.EveryClosedFrameIsAChunk := by
  intro commands s t _ hend h herr
  rw [List.append_assoc, List.singleton_append] at h
  obtain ⟨-, h⟩ := pass_of_issue_cons h herr
  obtain ⟨u, hbody, hclose⟩ := exists_of_issue_append h
  obtain ⟨payload, hsent⟩ := exists_payloadSent_of_issue rfl hend hbody (err_eq_false_of_issue hclose herr)
  obtain ⟨hpass, hclosed⟩ := pass_of_issue_cons hclose herr
  cases hclosed
  have hpaid : u.rem = 0 := by
    simpa [commandChecks, noFrame, hsent.fph] using firstFailing_eq_none.1 hpass
  have hcrc : u.crc = crcFold crcInitial (be32 s.type ++ payload) := by
    rw [crcFold_append]
    exact hsent.crc
  have hlength : u.rem.toNat + payload.length = s.len.toNat := hsent.rem
  refine ⟨payload, by simpa [hpaid] using hlength, ?_⟩
  calc (closeFrame u).out
      = u.out ++ be32 (crcComplement u.crc) := rfl
    _ = s.out ++ be32 s.len ++ be32 s.type ++ payload ++ be32 (crc32 (be32 s.type ++ payload)) := by
      rw [hcrc, hsent.out]; rfl

/-! ## FR.CHUNK (R130) -/

theorem State.emitOut_emitOut (s : State) (bs cs : List Byte) :
    (s.emitOut bs).emitOut cs = s.emitOut (bs ++ cs) := by
  simp [State.emitOut]

/-- R86, R128: `FR.DATAS` sends its bytes, while the frame owes as many. -/
theorem issue_frDatas {bs : List Byte} {s : State} (herr : s.err = false) (hopen : s.fph = .payload)
    (howed : bs.length ≤ s.rem.toNat) :
    issue (frDatas bs) s =
      .next (((s.emitOut bs).setCrc (crcFold s.crc bs)).setRem (s.rem - BitVec.ofNat 32 bs.length)) := by
  induction bs generalizing s with
  | nil => simp [frDatas, State.emitOut, State.setCrc, State.setRem]
  | cons b rest ih =>
    rw [List.length_cons] at howed
    have hne : s.rem ≠ 0 := by bv_omega
    have howed' : rest.length ≤ (s.rem - 1).toNat := by bv_omega
    have hdiff : s.rem - 1 - BitVec.ofNat 32 rest.length = s.rem - BitVec.ofNat 32 (rest.length + 1) := by
      bv_omega
    have hrest : issue (frDatas rest) (((s.emitOut [b]).setCrc (crcUpd s.crc b)).setRem (s.rem - 1)) = _ :=
      ih herr hopen howed'
    rw [frDatas, List.map_cons, issue_cons _ (exec_frData_of_owed b hopen hne) herr, ← frDatas, hrest,
      State.setRem_rem, hdiff]
    simp [State.emitOut, State.setCrc, State.setRem]

/-- R24: TYPE is emitted as the four characters it holds. -/
theorem be32_word (tag : ChunkTag) : be32 tag.word = tag.bytes := by
  have hword : tag.word = commandWord tag.c0 (rgbField tag.c1 tag.c2 tag.c3) := by
    simp only [ChunkTag.word, commandWord, rgbField, BitVec.or_assoc]
  calc be32 tag.word
      = [opcodeOf tag.word, fieldR tag.word, fieldG tag.word, fieldB tag.word] := rfl
    _ = tag.bytes := by
      rw [hword, opcodeOf_commandWord_rgb, fieldR_commandWord, fieldG_commandWord, fieldB_commandWord_rgb]; rfl

/-- R82, R83, R127: the part of `FR.CHUNK` that opens the frame. -/
theorem issue_openChunk {tag : ChunkTag} {s : State} (n : Word) (hascii : tag.ascii = true) (herr : s.err = false)
    (hidle : s.fph = .idle) (hcount : s.tcnt = 0) :
    issue (frType tag ++ frLen n ++ [.frStart]) s =
      .next (openFrame (((s.setType tag.word).setTcnt 4).setLen n)) := by
  have hlen : issue (frLen n) ((s.setType tag.word).setTcnt 4) = _ := issue_frLen n herr
  have hstart : exec .frStart (((s.setType tag.word).setTcnt 4).setLen n) = _ := exec_frStart_of_idle hidle rfl
  rw [List.append_assoc, issue_append _ (issue_frType herr hascii hcount), issue_append _ hlen,
    issue_cons _ hstart herr, issue_nil]

/-- R86, R128, R129: the part of `FR.CHUNK` that pays what the frame owes and closes it. -/
theorem issue_closeChunk {payload : List Byte} {s : State} (herr : s.err = false) (hopen : s.fph = .payload)
    (howed : s.rem.toNat = payload.length) :
    issue (frDatas payload ++ [.frEnd]) s =
      .next (closeFrame (((s.emitOut payload).setCrc (crcFold s.crc payload)).setRem 0)) := by
  have hpaid : s.rem - BitVec.ofNat 32 payload.length = 0 := by bv_omega
  have hend : exec .frEnd (((s.emitOut payload).setCrc (crcFold s.crc payload)).setRem 0) = _ :=
    exec_frEnd_of_paid hopen rfl
  rw [issue_append _ (issue_frDatas herr hopen howed.ge), hpaid, issue_cons _ hend herr, issue_nil]

/-- R130: the end state of `FR.CHUNK`. -/
theorem issue_frChunk {tag : ChunkTag} {payload : List Byte} {s : State} (hascii : tag.ascii = true)
    (hlen : payload.length < 2 ^ 32) (herr : s.err = false) (hidle : s.fph = .idle) (hcount : s.tcnt = 0) :
    issue (frChunk tag payload) s = .next { s with
      out := s.out ++ makeChunk tag payload, fph := .idle, tcnt := 0, rem := 0,
      len := BitVec.ofNat 32 payload.length, type := tag.word,
      res := crc32 (tag.bytes ++ payload), crc := crc32 (tag.bytes ++ payload) ^^^ 0xFFFFFFFF } := by
  have hclose := issue_closeChunk (payload := payload) (s := openFrame
    (((s.setType tag.word).setTcnt 4).setLen (BitVec.ofNat 32 payload.length))) herr rfl
    ((BitVec.toNat_ofNat _ _).trans (Nat.mod_eq_of_lt hlen))
  have hcomplement : crc32 (tag.bytes ++ payload) ^^^ 0xFFFFFFFF = crcFold crcInitial (tag.bytes ++ payload) :=
    crcComplement_crcComplement _
  rw [frChunk, List.append_assoc, issue_append _ (issue_openChunk _ hascii herr hidle hcount), hclose, hcomplement]
  apply congrArg
  ext1 <;> simp [crc32, makeChunk, be32_word, crcFold_append]

/-- Settles O34: the end state of `FR.CHUNK`, and O24 for its interleaving with prepender commands. -/
theorem chunkSequenceEmitsMakeChunk : Obligations.ChunkSequenceEmitsMakeChunk := by
  intro tag payload s hascii hlen herr hidle hcount
  have hchunk := issue_frChunk hascii hlen herr hidle hcount
  refine ⟨hchunk, fun commands t hfilter h hend => ?_⟩
  have halone := (prependerAndFramerDoNotInterfere commands s t herr h hend).1
  rw [hfilter, hchunk] at halone
  exact (congrArg State.out (Host.Outcome.next.inj halone)).symm

/-! ## The fields of a chunk (R131) -/

/-- R13: the four bytes of a word spell it. -/
theorem ofBigEndian_be32 (v : Word) : ofBigEndian (be32 v) = v.toNat := by
  simp only [ofBigEndian, be32, List.foldl_cons, List.foldl_nil, BitVec.extractLsb'_toNat,
    Nat.shiftRight_eq_div_pow]
  omega

/-- Settles O35: the fields stand before the first and after the last byte of type and payload. -/
theorem chunkLengthAndCrcFields : Obligations.ChunkLengthAndCrcFields := by
  intro tag payload hlen
  have htake : (makeChunk tag payload).take 4 = be32 (BitVec.ofNat 32 payload.length) := rfl
  have hdrop : (makeChunk tag payload).drop (8 + payload.length) = be32 (crc32 (tag.bytes ++ payload)) :=
    List.drop_left' (by simp [ChunkTag.bytes]; omega)
  refine ⟨?_, ?_, ?_⟩
  · simp [makeChunk, ChunkTag.bytes]; omega
  · rw [htake, ofBigEndian_be32, BitVec.toNat_ofNat, Nat.mod_eq_of_lt hlen]
  · rw [hdrop, ofBigEndian_be32]

/-! ## The commands one by one (R123 to R129) -/

/-- Settles O45: the one check is for an open frame, and the one write is on OUT. -/
theorem outByteEmitsOutsideAFrame : Obligations.OutByteEmitsOutsideAFrame := by
  have hword : ∀ b : Byte, encode (.outByte b) = 0x08000000 ||| zext32 b := fun _ => rfl
  refine ⟨hword, illegalUnlessZero_of_reservedClear_iff (.outByte 0) reservedClear_b,
    fun b s => ⟨fun hopen => ?_, fun hidle => ?_⟩⟩
  · rw [exec_outByte, if_pos hopen, hword]
    rfl
  · rw [exec_outByte, if_neg (by simp [hidle])]
    rfl

/-- R124: the character enters at the low end. -/
theorem extractLsb'_shiftInByte_low (v : Word) (b : Byte) : (shiftInByte v b).extractLsb' 0 8 = b := by
  ext i hi
  simp [shiftInByte, hi, show i < 32 by omega]

/-- R124: the three characters last loaded move up, and the one before them leaves. -/
theorem extractLsb'_shiftInByte_high (v : Word) (b : Byte) :
    (shiftInByte v b).extractLsb' 8 24 = v.extractLsb' 0 24 := by
  ext i hi
  simp [shiftInByte, show 8 + i < 32 by omega, BitVec.getLsbD_eq_getElem (show i < 32 by omega)]

/-- Settles O46: TYPE_LENGTH is the first check and TYPE_CHAR the second, and the writes are TYPE and TCNT. -/
theorem frTypebShiftsACharacterIn : Obligations.FrTypebShiftsACharacterIn := by
  have hword : ∀ b : Byte, encode (.frTypeb b) = 0x10000000 ||| zext32 b := fun _ => rfl
  refine ⟨hword, illegalUnlessZero_of_reservedClear_iff (.frTypeb 0) reservedClear_b,
    fun b s => ⟨fun hfull => ?_, fun hroom hchar => ?_, fun hroom hchar => ⟨shiftInByte s.type b, ?_,
      extractLsb'_shiftInByte_low _ _, extractLsb'_shiftInByte_high _ _⟩⟩⟩
  · rw [exec_frTypeb, if_pos hfull, hword]
    rfl
  · rw [exec_frTypeb, if_neg hroom, if_pos hchar, hword]
    rfl
  · rw [exec_frTypeb, if_neg hroom, if_neg (Nat.not_lt.2 hchar)]
    rfl

/-! ### Half-word loads (R73) -/

@[simp] theorem upperHalf_loadUpper (v : Word) (imm : Half) : upperHalf (loadUpper v imm) = imm := by
  ext i hi
  simp [upperHalf, getLsbD_loadUpper v imm (show 16 + i < 32 by omega), hi]

@[simp] theorem lowerHalf_loadUpper (v : Word) (imm : Half) : lowerHalf (loadUpper v imm) = lowerHalf v := by
  ext i hi
  simp [lowerHalf, getLsbD_loadUpper v imm (show i < 32 by omega), hi]

@[simp] theorem lowerHalf_loadLower (v : Word) (imm : Half) : lowerHalf (loadLower v imm) = imm := by
  ext i hi
  simp [lowerHalf, getLsbD_loadLower v imm (show i < 32 by omega), hi]

@[simp] theorem upperHalf_loadLower (v : Word) (imm : Half) : upperHalf (loadLower v imm) = upperHalf v := by
  ext i hi
  simp [upperHalf, getLsbD_loadLower v imm (show 16 + i < 32 by omega)]

/-- Settles O47: there is no check, and the one write is an upper-half load. -/
theorem frLenhLoadsTheUpperHalf : Obligations.FrLenhLoadsTheUpperHalf :=
  ⟨fun _ => rfl, illegalUnlessZero_of_reservedClear_iff (.frLenh 0) reservedClear_c,
    fun imm s => ⟨loadUpper s.len imm, exec_frLenh imm s, upperHalf_loadUpper _ _, lowerHalf_loadUpper _ _⟩⟩

/-- Settles O48: there is no check, and the one write is a lower-half load. -/
theorem frLenlLoadsTheLowerHalf : Obligations.FrLenlLoadsTheLowerHalf :=
  ⟨fun _ => rfl, illegalUnlessZero_of_reservedClear_iff (.frLenl 0) reservedClear_c,
    fun imm s => ⟨loadLower s.len imm, exec_frLenl imm s, lowerHalf_loadLower _ _, upperHalf_loadLower _ _⟩⟩

/-- Settles O49: SEQUENCE is the first check and TYPE_LENGTH the second, and the writes open the frame. -/
theorem frStartOpensAFrame : Obligations.FrStartOpensAFrame := by
  refine ⟨rfl, illegalUnlessZero_of_reservedClear_iff .frStart reservedClear_a,
    fun s => ⟨fun hopen => ?_, fun hidle hcount => ?_, fun hidle hcount => ?_⟩, by decide +kernel⟩
  · rw [exec_frStart, if_pos hopen]
    rfl
  · rw [exec_frStart, if_neg (by simp [hidle]), if_neg hcount]
    rfl
  · rw [exec_frStart_of_idle hidle hcount, openFrame, State.emitOut_emitOut]
    rfl

/-- Settles O50: SEQUENCE is the first check and LENGTH_MISMATCH the second, so the byte is paid with a positive REM. -/
theorem frDataEmitsAPayloadByte : Obligations.FrDataEmitsAPayloadByte := by
  have hword : ∀ b : Byte, encode (.frData b) = 0x14000000 ||| zext32 b := fun _ => rfl
  refine ⟨hword, illegalUnlessZero_of_reservedClear_iff (.frData 0) reservedClear_b,
    fun b s => ⟨fun hidle => ?_, fun hopen hpaid => ?_, fun hopen howed => ⟨s.rem - 1, ?_, ?_⟩⟩, by decide⟩
  · rw [exec_frData, if_pos hidle, hword]
    rfl
  · rw [exec_frData, if_neg (by simp [hopen]), if_pos hpaid, hword]
    rfl
  · exact exec_frData_of_owed b hopen howed
  · exact (PayloadSent.frData b hopen howed).rem

/-- Settles O51: SEQUENCE is the first check and LENGTH_MISMATCH the second, and the writes close the frame. -/
theorem frEndClosesTheFrame : Obligations.FrEndClosesTheFrame := by
  refine ⟨rfl, illegalUnlessZero_of_reservedClear_iff .frEnd reservedClear_a,
    fun s => ⟨fun hidle => ?_, fun hopen howed => ?_, fun hopen hpaid => ?_⟩⟩
  · rw [exec_frEnd, if_pos hidle]
    rfl
  · rw [exec_frEnd, if_neg (by simp [hopen]), if_neg howed]
    rfl
  · rw [exec_frEnd_of_paid hopen hpaid, closeFrame, crcComplement_eq_not]
    rfl

end Sys2Proof.Machine
end

section
/-! The scanline prepender (42_scanline.md): what a job puts on RAW (R151, R153, R160), and its commands one by one
(R154 to R159). -/

namespace Sys2Proof.Machine

/-! ## The commands and the phase (R154 to R159) -/

section
variable {s : State} {i : Instr}

/-- R154 to R158: a command that first asks for no job faults during one. -/
theorem exec_fault_of_job {rest : List (Bool × Cause)} (hchecks : commandChecks i s = jobActive s :: rest)
    (hactive : s.sph = .active) : exec i s = .next (faultEntry .sequence (encode i) s) := by
  rw [exec_eq_checked, hchecks, jobActive, checked_cons, if_pos (by simp [hactive])]

/-- R154 to R157: a command that asks for nothing but no job performs its writes outside one. -/
theorem exec_writes_of_no_job (hchecks : commandChecks i s = [jobActive s]) (hidle : s.sph = .idle) :
    exec i s = .next (commandWrites i s) :=
  exec_of_pass (by simp [hchecks, firstFailing_eq_none, jobActive, hidle])

theorem exec_slStart_of_idle (hidle : s.sph = .idle) (hw : s.w ≠ 0) (hh : s.h ≠ 0) :
    exec .slStart s = .next (startJob s) := by
  rw [exec_slStart, if_neg (by simp [hidle]), if_neg (not_or.2 ⟨hw, hh⟩)]

/-- R159: the position does not depend on the bytes emitted. -/
theorem advancePosition_emitRaw (s : State) (bs : List Byte) :
    advancePosition (s.emitRaw bs) = (advancePosition s).emitRaw bs := by
  by_cases hrow : s.x + 1 = s.w
  · by_cases hlast : s.y + 1 = s.h
    · rw [advancePosition_last hrow hlast, advancePosition_last (s := s.emitRaw bs) hrow hlast]; rfl
    · rw [advancePosition_row hrow hlast, advancePosition_row (s := s.emitRaw bs) hrow hlast]; rfl
  · rw [advancePosition_mid hrow, advancePosition_mid (s := s.emitRaw bs) hrow]; rfl

theorem exec_slPix_of_active (r g bl : Byte) (hactive : s.sph = .active) :
    exec (.slPix r g bl) s = .next ((advancePosition s).emitRaw (pixelBytes s r g bl)) := by
  rw [exec_slPix, if_neg (by simp [hactive]), advancePosition_emitRaw]

theorem pixelBytes_of_first (r g bl : Byte) (hx : s.x = 0) : pixelBytes s r g bl = [0x00, r, g, bl] := by
  simp [pixelBytes, hx]

theorem pixelBytes_of_later (r g bl : Byte) (hx : s.x ≠ 0) : pixelBytes s r g bl = [r, g, bl] := by
  rw [pixelBytes, if_neg (by simpa using hx), List.nil_append]

end

/-! ## The bytes of the rows (R151, R153) -/

theorem rawRow_succ (n : Nat) (row : Nat → Pixel) : rawRow (n + 1) row = rawRow n row ++ (row n).bytes := by
  simp [rawRow, List.range_succ]

theorem rawScanlines_succ (width n : Nat) (px : Nat → Nat → Pixel) :
    rawScanlines width (n + 1) px = rawScanlines width n px ++ rawRow width fun x => px x n := by
  simp [rawScanlines, List.range_succ]

theorem rawRow_length (width : Nat) (row : Nat → Pixel) : (rawRow width row).length = 1 + 3 * width := by
  induction width with
  | zero => rfl
  | succ n ih => rw [rawRow_succ, List.length_append, ih]; rfl

/-- R153. -/
theorem rawScanlines_length (width height : Nat) (px : Nat → Nat → Pixel) :
    (rawScanlines width height px).length = height * (1 + 3 * width) := by
  induction height with
  | zero => simp [rawScanlines]
  | succ n ih => rw [rawScanlines_succ, List.length_append, ih, rawRow_length, Nat.add_one_mul n]

/-- The bytes a row has put on RAW before the pixel of column `x` (R159): the filter byte comes with the first
pixel. -/
def rawRowSoFar (x : Nat) (row : Nat → Pixel) : List Byte := if x = 0 then [] else rawRow x row

/-- R159: a pixel completes the bytes of its row up to and with its column. -/
theorem rawRowSoFar_append_pixelBytes {s : State} {x : Nat} (row : Nat → Pixel) (hx : s.x.toNat = x) :
    rawRowSoFar x row ++ pixelBytes s (row x).r (row x).g (row x).bl = rawRow (x + 1) row := by
  cases x with
  | zero =>
    have hfirst : s.x = 0 := by bv_omega
    rw [pixelBytes_of_first _ _ _ hfirst]; rfl
  | succ n =>
    have hlater : s.x ≠ 0 := by bv_omega
    rw [pixelBytes_of_later _ _ _ hlater, rawRow_succ _ row]; rfl

/-- The length of `rawRowSoFar`, which the pixels do not change. -/
def rowLengthSoFar (x : Nat) : Nat := if x = 0 then 0 else 1 + 3 * x

theorem rawRowSoFar_length (x : Nat) (row : Nat → Pixel) : (rawRowSoFar x row).length = rowLengthSoFar x := by
  cases x with
  | zero => rfl
  | succ n => exact rawRow_length (n + 1) row

/-- R159: a pixel brings its row to the length the next column is to find. -/
theorem rowLengthSoFar_add_pixelBytes (s : State) (r g bl : Byte) :
    rowLengthSoFar s.x.toNat + (pixelBytes s r g bl).length = 1 + 3 * (s.x.toNat + 1) := by
  have hbytes := rawRowSoFar_append_pixelBytes (s := s) (fun _ => ⟨r, g, bl⟩) rfl
  simpa [rawRowSoFar_length, rawRow_length] using congrArg List.length hbytes

/-! ## A running job (R153) -/

/-- At `t` the job started at `s` waits for the pixel of column `t.x` and row `t.y`, and RAW has gained the bytes of
all pixels before it. -/
structure JobRunning (s t : State) : Prop where
  active : t.sph = .active
  w : t.w = s.w
  h : t.h = s.h
  x_lt : t.x.toNat < s.w.toNat
  y_lt : t.y.toNat < s.h.toNat
  raw : t.raw.length = s.raw.length + t.y.toNat * (1 + 3 * s.w.toNat) + rowLengthSoFar t.x.toNat

/-- At `t` the job started at `s` has ended, and RAW has gained all its rows. -/
structure JobEnded (s t : State) : Prop where
  idle : t.sph = .idle
  raw : t.raw.length = s.raw.length + s.h.toNat * (1 + 3 * s.w.toNat)

section
variable {s t : State}

theorem JobRunning.start (hw : s.w ≠ 0) (hh : s.h ≠ 0) : JobRunning s (startJob s) where
  active := rfl
  w := rfl
  h := rfl
  x_lt := by rw [startJob_x]; bv_omega
  y_lt := by rw [startJob_y]; bv_omega
  raw := by simp [rowLengthSoFar]

/-- R159: a pixel keeps the job running, or it is the last one and ends it. -/
theorem JobRunning.slPix (hjob : JobRunning s t) (r g bl : Byte) :
    JobRunning s (commandWrites (.slPix r g bl) t) ∨ JobEnded s (commandWrites (.slPix r g bl) t) := by
  obtain ⟨hactive, hw, hh, hx, hy, hraw⟩ := hjob
  have hpixel := rowLengthSoFar_add_pixelBytes t r g bl
  have hlength : (t.raw ++ pixelBytes t r g bl).length =
      s.raw.length + t.y.toNat * (1 + 3 * s.w.toNat) + (1 + 3 * (t.x.toNat + 1)) := by
    rw [List.length_append, hraw]
    omega
  rw [commandWrites, advancePosition_emitRaw]
  by_cases hrow : t.x + 1 = t.w
  · have hwidth : t.x.toNat + 1 = s.w.toNat := by bv_omega
    rw [hwidth, Nat.add_assoc, ← Nat.add_one_mul] at hlength
    by_cases hlast : t.y + 1 = t.h
    · have hheight : t.y.toNat + 1 = s.h.toNat := by bv_omega
      rw [advancePosition_last hrow hlast]
      exact .inr ⟨rfl, hheight ▸ hlength⟩
    · have hnext : (t.y + 1).toNat = t.y.toNat + 1 := by bv_omega
      have hroom : t.y.toNat + 1 < s.h.toNat := by bv_omega
      rw [advancePosition_row hrow hlast]
      exact .inl ⟨hactive, hw, hh, Nat.zero_lt_of_lt hx, hnext ▸ hroom, hnext ▸ hlength⟩
  · have hnext : (t.x + 1).toNat = t.x.toNat + 1 := by bv_omega
    have hroom : t.x.toNat + 1 < s.w.toNat := by bv_omega
    rw [advancePosition_mid hrow]
    exact .inl ⟨hactive, hw, hh, hnext ▸ hroom, hy, hnext ▸ hlength⟩

/-- A running job goes on or ends: no command but `SL.PIX` that is accepted during a job touches it. -/
theorem JobRunning.of_pass (hjob : JobRunning s t) {i : Instr}
    (hpass : firstFailing (commandChecks i t) = none) :
    JobRunning s (commandWrites i t) ∨ JobEnded s (commandWrites i t) := by
  rw [firstFailing_eq_none] at hpass
  cases i with
  | slPix r g bl => exact hjob.slPix r g bl
  | slWh | slWl | slHh | slHl | slStart => simp [commandChecks, jobActive, hjob.active] at hpass
  | _ => exact .inl { hjob with }

/-- An ended job has put its last byte on RAW: outside a job no pixel is accepted. -/
theorem JobEnded.of_pass (hjob : JobEnded s t) {i : Instr} (hi : i ≠ .slStart)
    (hpass : firstFailing (commandChecks i t) = none) : JobEnded s (commandWrites i t) := by
  rw [firstFailing_eq_none] at hpass
  cases i with
  | slStart => exact absurd rfl hi
  | slPix r g bl => simp [commandChecks, noJob, hjob.idle] at hpass
  | _ => exact { hjob with }

/-- R153: a running job goes on or ends, and an ended one stays ended while no other is started. -/
theorem jobRunning_or_jobEnded_of_issue {commands : List Instr} {u : State} (hjob : JobRunning s t ∨ JobEnded s t)
    (hstart : Instr.slStart ∉ commands) (h : issue commands t = .next u) (herr : u.err = false) :
    JobRunning s u ∨ JobEnded s u := by
  induction commands generalizing t with
  | nil =>
    cases h
    exact hjob
  | cons i rest ih =>
    obtain ⟨hi, hrest⟩ := not_or.1 (List.mem_cons.not.1 hstart)
    obtain ⟨hpass, h⟩ := pass_of_issue_cons h herr
    obtain hrunning | hended := hjob
    · exact ih (hrunning.of_pass hpass) hrest h
    · exact ih (.inr (hended.of_pass (Ne.symm hi) hpass)) hrest h

end

/-- Settles O27: a job accepts `SL.START` only with positive dimensions, then counts its bytes by its position, and
ends with all rows counted. -/
theorem everyFinishedJobHasFullLength : Obligations.EveryFinishedJobHasFullLength := by
  intro commands s t _ hstart h herr hidle
  obtain ⟨hpass, h⟩ := pass_of_issue_cons h herr
  have hfacts : s.sph ≠ .active ∧ s.w ≠ 0 ∧ s.h ≠ 0 := by
    simpa [commandChecks, jobActive] using firstFailing_eq_none.1 hpass
  obtain ⟨-, hw, hh⟩ := hfacts
  obtain hrunning | hended := jobRunning_or_jobEnded_of_issue (.inl (.start hw hh)) hstart h herr
  · cases hidle.symm.trans hrunning.active
  · exact hended.raw

/-! ## A whole job (R151, R160) -/

/-- The commands of the first `n` pixels of a row (R160). -/
def slRow (n : Nat) (row : Nat → Pixel) : List Instr := (List.range n).map fun x => slPixel (row x)

theorem slRow_succ (n : Nat) (row : Nat → Pixel) : slRow (n + 1) row = slRow n row ++ [slPixel (row n)] := by
  simp [slRow, List.range_succ]

theorem slPixels_succ (width n : Nat) (px : Nat → Nat → Pixel) :
    slPixels width (n + 1) px = slPixels width n px ++ slRow width fun x => px x n := by
  simp [slPixels, slRow, List.range_succ]

theorem slRow_length (n : Nat) (row : Nat → Pixel) : (slRow n row).length = n := by
  simp [slRow]

theorem slPixels_length (width height : Nat) (px : Nat → Nat → Pixel) :
    (slPixels width height px).length = height * width := by
  induction height with
  | zero => simp [slPixels]
  | succ n ih => rw [slPixels_succ, List.length_append, ih, slRow_length, Nat.add_one_mul n]

/-- The state of the job started at `s` before the pixel of column `x` and row `y`: all pixels before it are on RAW. -/
def jobAt (s : State) (px : Nat → Nat → Pixel) (x y : Nat) : State :=
  ((s.emitRaw (rawScanlines s.w.toNat y px ++ rawRowSoFar x fun column => px column y)).setX
    (BitVec.ofNat 32 x)).setY (BitVec.ofNat 32 y)

theorem jobAt_start {s : State} (px : Nat → Nat → Pixel) (hx : s.x = 0) (hy : s.y = 0) : jobAt s px 0 0 = s := by
  ext1 <;> simp [jobAt, rawScanlines, rawRowSoFar, hx, hy]

/-- Counting one on below a bound reaches the bound exactly when it does in the 32 bits of a register. -/
theorem ofNat_add_one_eq_iff {v : Word} {n : Nat} (hn : n < v.toNat) :
    BitVec.ofNat 32 n + 1 = v ↔ n + 1 = v.toNat := by
  constructor
  · intro h
    bv_omega
  · intro h
    bv_omega

section
variable {s : State} (px : Nat → Nat → Pixel) {x y : Nat}

theorem jobAt_err (x y : Nat) : (jobAt s px x y).err = s.err := rfl

theorem jobAt_x_toNat (hx : x < s.w.toNat) : (jobAt s px x y).x.toNat = x :=
  Nat.mod_eq_of_lt (hx.trans s.w.isLt)

theorem jobAt_y_toNat (hy : y < s.h.toNat) : (jobAt s px x y).y.toNat = y :=
  Nat.mod_eq_of_lt (hy.trans s.h.isLt)

theorem jobAt_raw_append_pixelBytes (hx : x < s.w.toNat) :
    (jobAt s px x y).raw ++ pixelBytes (jobAt s px x y) (px x y).r (px x y).g (px x y).bl =
      s.raw ++ (rawScanlines s.w.toNat y px ++ rawRow (x + 1) fun column => px column y) := by
  rw [← rawRowSoFar_append_pixelBytes (fun column => px column y) (jobAt_x_toNat px hx)]
  exact (List.append_assoc _ _ _).trans (congrArg _ (List.append_assoc _ _ _))

variable (hactive : s.sph = .active)
include hactive

theorem exec_slPixel_jobAt (x y : Nat) : exec (slPixel (px x y)) (jobAt s px x y) =
    .next ((advancePosition (jobAt s px x y)).emitRaw
      (pixelBytes (jobAt s px x y) (px x y).r (px x y).g (px x y).bl)) :=
  exec_slPix_of_active (s := jobAt s px x y) _ _ _ hactive

/-- R159: a pixel in the middle of a row. -/
theorem exec_slPixel_of_mid (hx : x + 1 < s.w.toNat) :
    exec (slPixel (px x y)) (jobAt s px x y) = .next (jobAt s px (x + 1) y) := by
  have hcolumn : x < s.w.toNat := Nat.lt_of_succ_lt hx
  have hmid : (jobAt s px x y).x + 1 ≠ (jobAt s px x y).w := mt (ofNat_add_one_eq_iff hcolumn).1 hx.ne
  rw [exec_slPixel_jobAt px hactive, advancePosition_mid hmid, State.emitRaw, State.setX_raw,
    jobAt_raw_append_pixelBytes px hcolumn]
  simp [jobAt, State.setX, State.setY, State.emitRaw, rawRowSoFar, BitVec.ofNat_add]

/-- R159: the last pixel of a row that is not the last row. -/
theorem exec_slPixel_of_row (hx : x + 1 = s.w.toNat) (hy : y + 1 < s.h.toNat) :
    exec (slPixel (px x y)) (jobAt s px x y) = .next (jobAt s px 0 (y + 1)) := by
  have hcolumn : x < s.w.toNat := by omega
  have hrow : (jobAt s px x y).x + 1 = (jobAt s px x y).w := (ofNat_add_one_eq_iff hcolumn).2 hx
  have hmore : (jobAt s px x y).y + 1 ≠ (jobAt s px x y).h :=
    mt (ofNat_add_one_eq_iff (Nat.lt_of_succ_lt hy)).1 hy.ne
  rw [exec_slPixel_jobAt px hactive, advancePosition_row hrow hmore, State.emitRaw, State.setY_raw, State.setX_raw,
    jobAt_raw_append_pixelBytes px hcolumn, hx, ← rawScanlines_succ]
  simp [jobAt, State.setX, State.setY, State.emitRaw, rawRowSoFar, BitVec.ofNat_add]

/-- R159: the last pixel of the job. -/
theorem exec_slPixel_of_last (hx : x + 1 = s.w.toNat) (hy : y + 1 = s.h.toNat) :
    exec (slPixel (px x y)) (jobAt s px x y) = .next ((jobAt s px 0 (y + 1)).setSph .idle) := by
  have hcolumn : x < s.w.toNat := by omega
  have hbottom : y < s.h.toNat := by omega
  have hrow : (jobAt s px x y).x + 1 = (jobAt s px x y).w := (ofNat_add_one_eq_iff hcolumn).2 hx
  have hlast : (jobAt s px x y).y + 1 = (jobAt s px x y).h := (ofNat_add_one_eq_iff hbottom).2 hy
  rw [exec_slPixel_jobAt px hactive, advancePosition_last hrow hlast, State.emitRaw, State.setSph_raw, State.setY_raw,
    State.setX_raw, jobAt_raw_append_pixelBytes px hcolumn, hx, ← rawScanlines_succ]
  simp [jobAt, State.setX, State.setY, State.setSph, State.emitRaw, rawRowSoFar, BitVec.ofNat_add]

end

section
variable {s : State} (px : Nat → Nat → Pixel) (herr : s.err = false) (hactive : s.sph = .active)
include herr hactive

/-- R160: the pixels of a row but its last. -/
theorem issue_slRow {n : Nat} (y : Nat) (hn : n < s.w.toNat) :
    issue (slRow n fun x => px x y) (jobAt s px 0 y) = .next (jobAt s px n y) := by
  induction n with
  | zero => rfl
  | succ n ih =>
    rw [slRow_succ, issue_append _ (ih (Nat.lt_of_succ_lt hn)),
      issue_cons _ (exec_slPixel_of_mid px hactive hn) herr, issue_nil]

/-- R160: the rows but the last. -/
theorem issue_slPixels {n : Nat} (hw : 0 < s.w.toNat) (hn : n < s.h.toNat) :
    issue (slPixels s.w.toNat n px) (jobAt s px 0 0) = .next (jobAt s px 0 n) := by
  obtain ⟨last, hlast⟩ : ∃ last, s.w.toNat = last + 1 := Nat.exists_eq_succ_of_ne_zero hw.ne'
  induction n with
  | zero => rfl
  | succ n ih =>
    have hrow := exec_slPixel_of_row px hactive (y := n) hlast.symm hn
    rw [slPixels_succ, issue_append _ (ih (Nat.lt_of_succ_lt hn)), hlast, slRow_succ,
      issue_append _ (issue_slRow px herr hactive n (by omega)), issue_cons _ hrow herr, issue_nil]

/-- R160: the pixels before the one of column `x` and row `y`. -/
theorem issue_pixelsBefore {x y : Nat} (hx : x < s.w.toNat) (hy : y < s.h.toNat) :
    issue (slPixels s.w.toNat y px ++ slRow x fun column => px column y) (jobAt s px 0 0) =
      .next (jobAt s px x y) := by
  rw [issue_append _ (issue_slPixels px herr hactive (by omega) hy), issue_slRow px herr hactive y hx]

/-- R160: all pixels. -/
theorem issue_allPixels (hw : 0 < s.w.toNat) (hh : 0 < s.h.toNat) :
    issue (slPixels s.w.toNat s.h.toNat px) (jobAt s px 0 0) =
      .next ((jobAt s px 0 s.h.toNat).setSph .idle) := by
  obtain ⟨x, hx⟩ : ∃ x, s.w.toNat = x + 1 := Nat.exists_eq_succ_of_ne_zero hw.ne'
  obtain ⟨y, hy⟩ : ∃ y, s.h.toNat = y + 1 := Nat.exists_eq_succ_of_ne_zero hh.ne'
  have hbefore := issue_pixelsBefore px herr hactive (x := x) (y := y) (by omega) (by omega)
  have hlast := exec_slPixel_of_last px hactive hx.symm hy.symm
  rw [hx] at hbefore
  rw [hx, hy, slPixels_succ, slRow_succ, ← List.append_assoc, issue_append _ hbefore, issue_cons _ hlast herr,
    issue_nil]

end

/-- R160: the state a job's first pixel finds. -/
def jobStart (s : State) (width height : Word) : State := startJob ((s.setW width).setH height)

section
variable {width height : Word} (px : Nat → Nat → Pixel) {s : State} (hw : width ≠ 0) (hh : height ≠ 0)
  (herr : s.err = false) (hidle : s.sph = .idle)
include hw hh herr hidle

theorem issue_jobStart : issue (slDim width height ++ [.slStart]) s = .next (jobStart s width height) := by
  have hstart : exec .slStart ((s.setW width).setH height) = _ := exec_slStart_of_idle hidle hw hh
  rw [issue_append _ (issue_slDim width height herr hidle), issue_cons _ hstart herr, issue_nil]
  rfl

/-- R160: the end state of a job. -/
theorem issue_slJob : issue (slJob width height px) s = .next { s with
    w := width, h := height, x := 0, y := height, sph := .idle,
    raw := s.raw ++ rawScanlines width.toNat height.toNat px } := by
  have hwidth : 0 < width.toNat := by bv_omega
  have hheight : 0 < height.toNat := by bv_omega
  have hpixels := issue_allPixels px (s := jobStart s width height) herr rfl hwidth hheight
  rw [jobAt_start px rfl rfl] at hpixels
  rw [slJob, issue_append _ (issue_jobStart hw hh herr hidle)]
  refine hpixels.trans (congrArg _ ?_)
  ext1 <;> simp [jobAt, jobStart, rawRowSoFar]

end

theorem range_eq_append_cons {n m : Nat} (h : n < m) :
    List.range m = List.range n ++ n :: (List.range m).drop (n + 1) := by
  have hlength : n < (List.range m).length := by simpa using h
  conv_lhs => rw [← List.take_append_drop n (List.range m), List.drop_eq_getElem_cons hlength]
  simp [List.take_range, h.le]

/-- The pixel of column `x` and row `y` stands behind those of the rows above and of the columns to its left. -/
theorem exists_slPixels_eq (px : Nat → Nat → Pixel) {width height x y : Nat} (hx : x < width) (hy : y < height) :
    ∃ rest, slPixels width height px =
      (slPixels width y px ++ slRow x fun column => px column y) ++ slPixel (px x y) :: rest := by
  have hrow : ∃ rest, slRow width (fun column => px column y) =
      slRow x (fun column => px column y) ++ slPixel (px x y) :: rest :=
    ⟨_, by rw [slRow, range_eq_append_cons hx, List.map_append, List.map_cons]; rfl⟩
  have hrows : ∃ rest, slPixels width height px =
      slPixels width y px ++ (slRow width (fun column => px column y) ++ rest) :=
    ⟨_, by rw [slPixels, range_eq_append_cons hy, List.flatMap_append, List.flatMap_cons]; rfl⟩
  obtain ⟨restOfRow, hrow⟩ := hrow
  obtain ⟨restOfRows, hrows⟩ := hrows
  exact ⟨restOfRow ++ restOfRows, by simp [hrows, hrow]⟩

/-- Settles O36: the job's end state, O24 for its interleaving, and the state before each pixel. -/
theorem scanlineJobEmitsRawScanlines : Obligations.ScanlineJobEmitsRawScanlines := by
  intro width height px s hw hh herr hidle
  have hjob := issue_slJob px hw hh herr hidle
  refine ⟨hjob, rawScanlines_length _ _ px, fun x y hx hy => ?_, fun commands t hfilter h hend => ?_⟩
  · obtain ⟨rest, hpixels⟩ := exists_slPixels_eq px hx hy
    have hlength : (slPixels width.toNat y px ++ slRow x fun column => px column y).length =
        y * width.toNat + x := by
      rw [List.length_append, slPixels_length, slRow_length]
    have hbefore := issue_pixelsBefore px (s := jobStart s width height) herr rfl hx hy
    rw [jobAt_start px rfl rfl] at hbefore
    rw [hpixels, List.take_left' hlength, issue_append _ (issue_jobStart hw hh herr hidle)]
    refine ⟨_, hbefore, (jobAt_err px x y).trans herr, rfl, jobAt_x_toNat px hx, jobAt_y_toNat px hy, ?_⟩
    rw [← hlength, List.getElem?_append_right le_rfl, Nat.sub_self, List.getElem?_cons_zero]
  · have halone := (prependerAndFramerDoNotInterfere commands s t herr h hend).2
    rw [hfilter, hjob] at halone
    exact (congrArg State.raw (Host.Outcome.next.inj halone)).symm

/-! ## The commands one by one (R154 to R159) -/

/-- Settles O52: the one check is for a job, and the one write is an upper-half load. -/
theorem slWhLoadsTheUpperWidth : Obligations.SlWhLoadsTheUpperWidth :=
  ⟨fun _ => rfl, illegalUnlessZero_of_reservedClear_iff (.slWh 0) reservedClear_c,
    fun imm s => ⟨exec_fault_of_job rfl, fun hidle => ⟨loadUpper s.w imm, exec_writes_of_no_job rfl hidle,
      upperHalf_loadUpper _ _, lowerHalf_loadUpper _ _⟩⟩⟩

/-- Settles O53: the one check is for a job, and the one write is a lower-half load. -/
theorem slWlLoadsTheLowerWidth : Obligations.SlWlLoadsTheLowerWidth :=
  ⟨fun _ => rfl, illegalUnlessZero_of_reservedClear_iff (.slWl 0) reservedClear_c,
    fun imm s => ⟨exec_fault_of_job rfl, fun hidle => ⟨loadLower s.w imm, exec_writes_of_no_job rfl hidle,
      lowerHalf_loadLower _ _, upperHalf_loadLower _ _⟩⟩⟩

/-- Settles O54: the one check is for a job, and the one write is an upper-half load. -/
theorem slHhLoadsTheUpperHeight : Obligations.SlHhLoadsTheUpperHeight :=
  ⟨fun _ => rfl, illegalUnlessZero_of_reservedClear_iff (.slHh 0) reservedClear_c,
    fun imm s => ⟨exec_fault_of_job rfl, fun hidle => ⟨loadUpper s.h imm, exec_writes_of_no_job rfl hidle,
      upperHalf_loadUpper _ _, lowerHalf_loadUpper _ _⟩⟩⟩

/-- Settles O55: the one check is for a job, and the one write is a lower-half load. -/
theorem slHlLoadsTheLowerHeight : Obligations.SlHlLoadsTheLowerHeight :=
  ⟨fun _ => rfl, illegalUnlessZero_of_reservedClear_iff (.slHl 0) reservedClear_c,
    fun imm s => ⟨exec_fault_of_job rfl, fun hidle => ⟨loadLower s.h imm, exec_writes_of_no_job rfl hidle,
      lowerHalf_loadLower _ _, upperHalf_loadLower _ _⟩⟩⟩

/-- Settles O56: SEQUENCE is the first check and BAD_DIMENSION the second, and the writes start the job. -/
theorem slStartBeginsAJob : Obligations.SlStartBeginsAJob := by
  refine ⟨rfl, illegalUnlessZero_of_reservedClear_iff .slStart reservedClear_a,
    fun s => ⟨exec_fault_of_job rfl, fun hidle hzero => ?_, exec_slStart_of_idle⟩⟩
  rw [exec_slStart, if_neg (by simp [hidle]), if_pos hzero]
  rfl

/-- Settles O57: the one check is for a job, and the position follows the three cases of `advancePosition`. -/
theorem slPixAcceptsAPixel : Obligations.SlPixAcceptsAPixel := by
  have hword : ∀ r g bl : Byte, encode (.slPix r g bl) =
      0x25000000 ||| (zext32 r <<< 16) ||| (zext32 g <<< 8) ||| zext32 bl := fun r g bl => by
    simp only [encode, commandWord, rgbField, BitVec.or_assoc]; rfl
  refine ⟨hword, fun r g bl s => ⟨fun hidle => ?fault, fun hactive =>
    ⟨_, exec_slPix_of_active r g bl hactive, ?unchanged, fun hx => ?first, fun hx => ?later, fun hrow => ?mid,
      fun hrow hlast => ?row, fun hrow hlast => ?last⟩⟩⟩
  case fault =>
    rw [exec_slPix, if_pos hidle, hword]
    rfl
  case unchanged => ext1 <;> simp
  case first => rw [State.emitRaw_raw, advancePosition_raw, pixelBytes_of_first r g bl hx]
  case later => rw [State.emitRaw_raw, advancePosition_raw, pixelBytes_of_later r g bl hx]
  case mid =>
    rw [advancePosition_mid hrow]
    exact ⟨rfl, rfl, hactive⟩
  case row =>
    rw [advancePosition_row hrow hlast]
    exact ⟨rfl, rfl, hactive⟩
  case last =>
    rw [advancePosition_last hrow hlast]
    exact ⟨rfl, hlast, rfl⟩

end Sys2Proof.Machine
end

section
/-! The control command (43_control_and_host.md R170), the IEND chunk (R184) and the host's PNG encode procedure
(R180 to R186). -/

namespace Sys2Proof.Machine

/-! ## A block between two chunks (R180) -/

/-- A block that can take the next step of the encode procedure: unfaulted, both phases idle, no type byte loaded. -/
structure State.Ready (s : State) : Prop where
  err : s.err = false
  fph : s.fph = .idle
  sph : s.sph = .idle
  tcnt : s.tcnt = 0

/-- R262. -/
theorem State.Ready.cleanEnd {s : State} (hs : s.Ready) : s.cleanEnd = true := by
  simp [State.cleanEnd, hs.err, hs.fph, hs.sph]

/-- From every ready block the commands run to a ready block, and put exactly `bs` on OUT. -/
def Emits (commands : List Instr) (bs : List Byte) : Prop :=
  ∀ s : State, s.Ready → ∃ t, issue commands s = .next t ∧ t.Ready ∧ t.out = s.out ++ bs

theorem Emits.append {first second : List Instr} {bs cs : List Byte} (hfirst : Emits first bs)
    (hsecond : Emits second cs) : Emits (first ++ second) (bs ++ cs) := by
  intro s hs
  obtain ⟨t, hst, ht, hout⟩ := hfirst s hs
  obtain ⟨u, htu, hu, hout'⟩ := hsecond t ht
  exact ⟨u, (issue_append second hst).trans htu, hu, by rw [hout', hout, List.append_assoc]⟩

/-- R181. -/
theorem emits_outSig : Emits outSig pngSignature :=
  fun _ hs => ⟨_, issue_outSig hs.err hs.fph, { hs with }, rfl⟩

theorem emits_frChunk {tag : ChunkTag} {payload : List Byte} (hascii : tag.ascii = true)
    (hlen : payload.length < 2 ^ 32) : Emits (frChunk tag payload) (makeChunk tag payload) :=
  fun _ hs => ⟨_, issue_frChunk hascii hlen hs.err hs.fph hs.tcnt,
    { err := hs.err, fph := rfl, sph := hs.sph, tcnt := rfl }, rfl⟩

/-- R180, steps 4 to 7: the framing commands are the file's parts in order. -/
theorem emits_encodeFraming (width height : Word) {z : List Byte} (hz : z.length < 2 ^ 32) :
    Emits (encodeFraming width height z) (pngFile width height z) :=
  ((emits_outSig.append (emits_frChunk (by decide) (by simp [ihdrPayload]))).append
    (emits_frChunk (by decide) hz)).append (emits_frChunk (by decide) (by decide))

/-- R185. -/
theorem pngFile_length (width height : Word) {z : List Byte} (hz : z.length < 2 ^ 32) :
    (pngFile width height z).length = 57 + z.length := by
  have hihdr := (chunkLengthAndCrcFields tagIhdr (ihdrPayload width height) (by simp [ihdrPayload])).1
  have hidat := (chunkLengthAndCrcFields tagIdat z hz).1
  have hiend := (chunkLengthAndCrcFields tagIend [] (by decide)).1
  simp only [pngFile, List.length_append, hihdr, hidat, hiend]
  simp [pngSignature, ihdrPayload]
  omega

/-! ## The steps of the encode procedure (R180, R186) -/

section
variable {compress : Config.Compress} {width height : Word} {px : Nat → Nat → Pixel} {s t : State}

/-- R186: a fault in the scanline job ends the procedure. -/
theorem encodePng_of_job_faulted (h : issue (encodeJob width height px) s = .next t) (herr : t.err = true) :
    encodePng compress width height px s = .next (.blockFault t) := by
  simp [encodePng, h, herr]

theorem encodePng_of_job (h : issue (encodeJob width height px) s = .next t) (herr : t.err = false) :
    encodePng compress width height px s = encodeCompressed compress width height s.raw.length t := by
  simp [encodePng, h, herr]

/-- R172, R186: a failing compressor ends the procedure and leaves the block as it is. -/
theorem encodeCompressed_none {taken : Nat} (h : compress (s.raw.drop taken) = none) :
    encodeCompressed compress width height taken s = .next (.compressorFailed s) := by
  simp [encodeCompressed, h]

theorem encodeCompressed_some {taken : Nat} {z : List Byte} (h : compress (s.raw.drop taken) = some z)
    (hz : z.length < 2 ^ 32) :
    encodeCompressed compress width height taken s = encodeFrames width height z s := by
  simp only [encodeCompressed, h, if_pos hz]

theorem encodeFrames_done {z : List Byte} (h : issue (encodeFraming width height z) s = .next t)
    (herr : t.err = false) : encodeFrames width height z s = .next (.done t) := by
  simp [encodeFrames, h, herr]

/-- R180, steps 1 to 3: with both dimensions positive the procedure comes to the compressor in a ready block, with
nothing new on OUT and the job's scanlines on RAW. -/
theorem exists_encodePng_eq_encodeCompressed (hs : s.Ready) (hw : width ≠ 0) (hh : height ≠ 0) :
    ∃ t, t.Ready ∧ t.out = s.out ∧ t.raw.drop s.raw.length = rawScanlines width.toNat height.toNat px ∧
      encodePng compress width height px s = encodeCompressed compress width height s.raw.length t := by
  have hjob := issue_slJob px hw hh hs.err hs.sph
  refine ⟨_, ?ready, ?out, ?raw, encodePng_of_job hjob hs.err⟩
  case ready => exact { err := hs.err, fph := hs.fph, sph := rfl, tcnt := hs.tcnt }
  case out => rfl
  case raw => exact List.drop_left

/-- R158, R186: with a zero dimension the job stops at `SL.START`, and the pixels after it are ignored (R206). -/
theorem issue_encodeJob_of_zero (hs : s.Ready) (hzero : width = 0 ∨ height = 0) :
    issue (encodeJob width height px) s =
      .next (faultEntry .badDimension (encode .slStart) ((s.setW width).setH height)) := by
  have hstart : exec .slStart ((s.setW width).setH height) =
      .next (faultEntry .badDimension (encode .slStart) ((s.setW width).setH height)) := by
    rw [exec_slStart, if_neg (by simp [hs.sph])]
    exact congrArg _ (if_pos hzero)
  rw [encodeJob, slJob, List.append_assoc, issue_append _ (issue_slDim width height hs.err hs.sph),
    List.singleton_append, issue_cons _ hstart hs.err, issue_faulted _ rfl]

end

/-- Settles O37: the job's scanlines go through the compressor, and the framing commands emit the file's parts. -/
theorem encodeProcedureEmitsThePngFile : Obligations.EncodeProcedureEmitsThePngFile := by
  intro compress width height px z s hw hh herr hfph hsph htcnt hcompress hz
  obtain ⟨t, ht, hout, hraw, hjob⟩ :=
    exists_encodePng_eq_encodeCompressed (compress := compress) (px := px) ⟨herr, hfph, hsph, htcnt⟩ hw hh
  obtain ⟨u, htu, hu, hout'⟩ := emits_encodeFraming width height hz t ht
  have hfile : u.out = s.out ++ pngFile width height z := by rw [hout', hout]
  have hdone : encodePng compress width height px s = .next (.done u) := by
    rw [hjob, encodeCompressed_some (hraw ▸ hcompress) hz, encodeFrames_done htu hu.err]
  refine ⟨u, hdone, hu.cleanEnd, ?length, ?bytes⟩
  case length => rw [hfile, List.length_append, pngFile_length width height hz]
  case bytes =>
    rw [hfile, pngFile]
    simp only [← List.append_assoc]
    rfl

/-- Settles O38: neither the scanline job nor a compressor that fails puts a byte on OUT. -/
theorem encodeProcedureFailuresEmitNothing : Obligations.EncodeProcedureFailuresEmitNothing := by
  intro compress width height px s herr hfph hsph htcnt
  have hs : s.Ready := ⟨herr, hfph, hsph, htcnt⟩
  refine ⟨fun hzero => ?dimension, fun hw hh hfails => ?compressor⟩
  case dimension =>
    exact ⟨_, encodePng_of_job_faulted (issue_encodeJob_of_zero hs hzero) rfl, rfl, rfl, rfl⟩
  case compressor =>
    obtain ⟨t, ht, hout, hraw, hjob⟩ :=
      exists_encodePng_eq_encodeCompressed (compress := compress) (px := px) hs hw hh
    exact ⟨t, hjob.trans (encodeCompressed_none (hraw ▸ hfails)), hout, ht.err⟩

/-- Settles O39: the length field is zero, and the CRC is that of the type alone. -/
theorem iendChunkBytes : Obligations.IendChunkBytes := by
  have hcrc : crc32 (tagIend.bytes ++ []) = 0xAE426082 := by decide +kernel
  rw [Obligations.IendChunkBytes, makeChunk, hcrc]
  decide

/-! ## NOP (R170) -/

/-- Settles O40: the word is format A's with opcode 0x00, and the command has no check and no write. -/
theorem nopHasNoEffect : Obligations.NopHasNoEffect :=
  ⟨rfl, illegalUnlessZero_of_reservedClear_iff .nop reservedClear_a, exec_nop⟩

/-- R204: a command that faults in an unfaulted block changes it, since it sets ERR. -/
theorem exec_ne_self_of_fault {i : Instr} {s : State} {c : Cause} (herr : s.err = false)
    (hfails : firstFailing (commandChecks i s) = some c) : exec i s ≠ .next s := by
  intro h
  rcases exec_cases h with ⟨c', -, heq⟩ | ⟨hpass, -⟩
  · have herr' : s.err = true := congrArg State.err heq
    cases herr.symm.trans herr'
  · cases hfails.symm.trans hpass

/-- R125: an upper-half load changes a LEN with another upper half. -/
theorem exec_frLenh_ne_self {imm : Half} {s : State} (hne : upperHalf s.len ≠ imm) :
    exec (.frLenh imm) s ≠ .next s := by
  intro h
  have hlen : loadUpper s.len imm = s.len := congrArg State.len (Host.Outcome.next.inj h)
  exact hne (by rw [← hlen, upperHalf_loadUpper])

/-- R126: a lower-half load changes a LEN with another lower half. -/
theorem exec_frLenl_ne_self {imm : Half} {s : State} (hne : lowerHalf s.len ≠ imm) :
    exec (.frLenl imm) s ≠ .next s := by
  intro h
  have hlen : loadLower s.len imm = s.len := congrArg State.len (Host.Outcome.next.inj h)
  exact hne (by rw [← hlen, lowerHalf_loadLower])

/-- R170: every command but `NOP` changes some unfaulted state. Those with a check fault in a phase or with a count
that fails it, and the loads of LEN change a LEN with another half. -/
theorem exists_exec_ne_self {i : Instr} (hi : i ≠ .nop) : ∃ s : State, s.err = false ∧ exec i s ≠ .next s := by
  cases i with
  | nop => exact absurd rfl hi
  | crcInit | crcByte | crcFinal | outByte | frStart =>
    exact ⟨State.reset.setFph .payload, rfl, exec_ne_self_of_fault (c := .sequence) rfl rfl⟩
  | frTypeb b => exact ⟨State.reset.setTcnt 4, rfl, exec_ne_self_of_fault (c := .typeLength) rfl rfl⟩
  | frLenh imm =>
    refine ⟨State.reset.setLen (loadUpper 0 (imm + 1)), rfl, exec_frLenh_ne_self ?_⟩
    rw [State.setLen_len, upperHalf_loadUpper]
    bv_omega
  | frLenl imm =>
    refine ⟨State.reset.setLen (loadLower 0 (imm + 1)), rfl, exec_frLenl_ne_self ?_⟩
    rw [State.setLen_len, lowerHalf_loadLower]
    bv_omega
  | frData | frEnd | slPix => exact ⟨State.reset, rfl, exec_ne_self_of_fault (c := .sequence) rfl rfl⟩
  | slWh | slWl | slHh | slHl | slStart =>
    exact ⟨State.reset.setSph .active, rfl, exec_ne_self_of_fault (c := .sequence) rfl rfl⟩

/-- Settles O41: a word that decodes is its command's encoding, and every command but `NOP` changes some state. -/
theorem onlyNopNeverChangesState : Obligations.OnlyNopNeverChangesState := by
  intro w i hdecode
  obtain rfl : encode i = w := encodeOfDecodeIsTheWord w i hdecode
  constructor
  · intro hsame
    by_cases hi : i = .nop
    · rw [hi]
      rfl
    · obtain ⟨s, herr, hne⟩ := exists_exec_ne_self hi
      exact absurd ((acceptCommand_legal herr hdecode).symm.trans (hsame s herr)) hne
  · intro hzero s herr
    rw [hzero]
    exact (acceptCommand_legal herr (decode_encode .nop)).trans (exec_nop s)

end Sys2Proof.Machine
end

section
/-! Faults (60_exceptions.md): the fault matrix and the order of causes (R202, R203), precise faults (R204, R205) and
the faulted block (R206). -/

namespace Sys2Proof.Machine

/-! ## Legal words (R76 to R78) -/

/-- R75, R77: every assigned opcode is the opcode of a command. -/
theorem exists_rowOf_op_eq {op : Byte} (h : assignedOpcode op = true) : ∃ i, (rowOf i).op = op := by
  have hrows : ∀ op : Byte, assignedOpcode op = true → op ∈ opcodeMap.map OpcodeRow.op := by decide
  obtain ⟨row, hrow, rfl⟩ := List.mem_map.1 (hrows op h)
  obtain ⟨i, rfl⟩ := exists_rowOf hrow
  exact ⟨i, rfl⟩

/-- R76: the reserved field of an assigned opcode is that of its command's format. -/
theorem reservedFieldClear_of_opcode {w : Word} {i : Instr} (hop : opcodeOf w = (rowOf i).op) :
    reservedFieldClear w = i.format.reservedClear w := by
  unfold opcodeOf at hop
  rw [reservedFieldClear, hop, Bool.eq_iff_iff]
  cases i with
  | nop | crcInit | crcFinal | frStart | frEnd | slStart => rw [Instr.format, reservedClear_a]; exact beq_iff_eq
  | crcByte | outByte | frTypeb | frData => rw [Instr.format, reservedClear_b]; exact beq_iff_eq
  | frLenh | frLenl | slWh | slWl | slHh | slHl => rw [Instr.format, reservedClear_c]; exact beq_iff_eq
  | slPix => rw [Instr.format, reservedClear_d]; rfl

/-- R76: the legal words are those with an assigned opcode and a clear reserved field. -/
theorem exists_decode_eq_ok_iff_legal {w : Word} :
    (∃ i, decode w = .ok i) ↔ (assignedOpcode (opcodeOf w) && reservedFieldClear w) = true := by
  rw [Bool.and_eq_true]
  constructor
  · rintro ⟨i, hdecode⟩
    obtain ⟨hop, hreserved, -⟩ := decode_eq_ok_iff.1 hdecode
    exact ⟨hop ▸ rowOf_op_assigned i, reservedFieldClear_of_opcode hop ▸ hreserved⟩
  · rintro ⟨hassigned, hreserved⟩
    obtain ⟨i, hop⟩ := exists_rowOf_op_eq hassigned
    rw [reservedFieldClear_of_opcode hop.symm] at hreserved
    exact ⟨i.withFieldsOf w, (decode_of_opcode hop.symm).trans (ofFormat_eq_ok.2 ⟨hreserved, rfl⟩)⟩

/-! ## The fault matrix (R202, R203) -/

/-- The columns of R202 after ILLEGAL_CMD, in the order of R203, as checks on a word. -/
def matrixChecks (w : Word) (s : State) : List (Bool × Cause) :=
  [(sequenceFault (opcodeOf w) s, .sequence), (typeLengthFault (opcodeOf w) s, .typeLength),
    (typeCharFault w, .typeChar), (lengthFault (opcodeOf w) s, .lengthMismatch),
    (dimensionFault (opcodeOf w) s, .badDimension)]

/-- R203: an illegal word reports ILLEGAL_CMD, whatever else applies. -/
theorem reportedCause_of_decode_error {w : Word} {e : DecodeError} (h : decode w = .error e) (s : State) :
    reportedCause w s = some .illegalCmd := by
  have hillegal : (assignedOpcode (opcodeOf w) && reservedFieldClear w) = false := by
    rw [← Bool.not_eq_true, ← exists_decode_eq_ok_iff_legal, h]
    simp
  exact if_pos (congrArg not hillegal)

/-- R203: a legal word reports the first column of the matrix that applies to it. -/
theorem reportedCause_of_decode_ok {w : Word} {i : Instr} (h : decode w = .ok i) (s : State) :
    reportedCause w s = firstFailing (matrixChecks w s) := by
  have hlegal : (assignedOpcode (opcodeOf w) && reservedFieldClear w) = true :=
    exists_decode_eq_ok_iff_legal.1 ⟨i, h⟩
  exact if_neg (ne_true_of_eq_false (congrArg not hlegal))

/-- R202: `b > 0x7F` is bit 7 of the operand byte. -/
theorem getLsbD_seven_eq_decide (w : Word) : w.getLsbD 7 = decide ((fieldB w).toNat > 0x7F) := by
  have hmsb : w.getLsbD 7 = (fieldB w).msb := by simp [fieldB, BitVec.msb_eq_getLsbD_last]
  rw [hmsb, BitVec.msb_eq_decide]
  rfl

/-- R202: TYPE_CHAR is a column of `FR.TYPEB` alone. -/
theorem typeCharFault_eq (w : Word) :
    typeCharFault w = (opcodeOf w == 0x10 && decide ((fieldB w).toNat > 0x7F)) := by
  rw [typeCharFault, getLsbD_seven_eq_decide, opcodeOf]

/-- R202, R203: the columns that apply to a command's word are the command's own checks, in the same order. -/
theorem firstFailing_matrixChecks {w : Word} {i : Instr} (h : decode w = .ok i) (s : State) :
    firstFailing (matrixChecks w s) = firstFailing (commandChecks i s) := by
  obtain ⟨hop, -, hfields⟩ := decode_eq_ok_iff.1 h
  rw [matrixChecks, typeCharFault_eq, hop]
  cases i with
  | nop | crcInit | crcByte | crcFinal | outByte | frLenh | frLenl | frStart | frEnd => rfl
  | slWh | slWl | slHh | slHl | slStart | slPix => rfl
  | frTypeb b =>
    obtain rfl : fieldB w = b := Instr.frTypeb.inj hfields
    have hcount : typeLengthFault 0x10 s = (s.tcnt == 4) := Bool.or_false _
    rw [rowOf, hcount]
    rfl
  | frData =>
    have howed : lengthFault 0x14 s = (s.rem == 0) := Bool.or_false _
    rw [rowOf, howed]
    rfl

/-- Settles O20: an illegal word reports ILLEGAL_CMD, and for a legal word the columns of the matrix are the checks of
its command, which records the first that fails with its own word or performs its writes. -/
theorem faultMatrixAndPriority : Obligations.FaultMatrixAndPriority := by
  refine ⟨by decide, fun w s herr => ?_⟩
  cases hdecode : decode w with
  | error e =>
    rw [reportedCause_of_decode_error hdecode, acceptCommand_illegal herr hdecode]
    refine ⟨fun c hc => ?_, fun hnone => by cases hnone⟩
    cases hc
    rfl
  | ok i =>
    rw [reportedCause_of_decode_ok hdecode, firstFailing_matrixChecks hdecode, acceptCommand_legal herr hdecode]
    refine ⟨fun c hfails => ?faults, fun hpass => ⟨commandWrites i s, exec_of_pass hpass, ?writes⟩⟩
    case faults =>
      rw [exec_eq_checked, checked, hfails, encodeOfDecodeIsTheWord w i hdecode]
      rfl
    case writes =>
      rw [← herr]
      exact commandWrites_faultRegisters i s

/-! ## Precise faults (R204, R205) -/

/-- Settles O19: a word that no cause of the matrix applies to leaves ERR clear, and one that reports a cause changes
the three fault registers alone. -/
theorem faultsArePrecise : Obligations.FaultsArePrecise := by
  intro w s t herr h hfault
  obtain ⟨hreports, hexecutes⟩ := faultMatrixAndPriority.2 w s herr
  cases hcause : reportedCause w s with
  | none =>
    obtain ⟨u, hu, hclear, -⟩ := hexecutes hcause
    obtain rfl : u = t := Host.Outcome.next.inj (hu.symm.trans h)
    cases hclear.symm.trans hfault
  | some c =>
    obtain rfl := Host.Outcome.next.inj ((hreports c hcause).symm.trans h)
    exact ⟨rfl, c.code_range⟩

/-! ## The faulted block (R206) -/

/-- R53: what RD has answered is no register of the block. -/
@[simp] theorem readRegister_answerRead (index : BitVec 4) (s : State) (v : Word) :
    readRegister index (s.answerRead v) = readRegister index s := by
  unfold readRegister
  split <;> rfl

@[simp] theorem readsOf_answerRead (actions : List HostAction) (s : State) (v : Word) :
    readsOf (s.answerRead v) actions = readsOf s actions := by
  induction actions with
  | nil => rfl
  | cons action rest ih => cases action <;> simp [readsOf, ih]

/-- Settles O21, by induction on the actions: a command word changes nothing, and a read only appends its answer. -/
theorem faultedBlockIgnoresEveryWord : Obligations.FaultedBlockIgnoresEveryWord := by
  intro s actions
  induction actions generalizing s with
  | nil =>
    intro _ _
    simp [readsOf]
  | cons action rest ih =>
    intro herr hreset
    obtain ⟨hne, hrest⟩ := not_or.1 (List.mem_cons.not.1 hreset)
    cases action with
    | command word =>
      have hignored : perform (.command word) s = .next s := acceptCommand_faulted word herr
      rw [performAll_cons rest hignored, ih s herr hrest, readsOf]
    | read index =>
      have hread : perform (.read index) s = .next (s.answerRead (readRegister index s)) := rfl
      rw [performAll_cons rest hread, ih (s.answerRead _) herr hrest, readsOf_answerRead]
      simp [State.answerRead, readsOf]
    | reset => exact absurd rfl hne

end Sys2Proof.Machine
end

section
/-! Reset (70_reset_and_hazards.md R250 to R252), the idle block (R218, R260), and the registers that a job or a frame
keeps (R257). -/

namespace Sys2Proof.Machine

/-! ## Reset steps and idle steps (R218, R250, R251) -/

theorem step_of_pending_reset {s : State} {rest : List HostAction} (h : s.pending = .reset :: rest) :
    step s = .next (resetBlock (s.setPending rest)) :=
  step_of_pending h

/-- Settles O14: the step is a reset of the block, taken off the pending list. -/
theorem resetStepRestoresResetValues : Obligations.ResetStepRestoresResetValues :=
  fun _ _ hpending => ⟨_, step_of_pending_reset hpending, by simp [State.reset]⟩

/-- Settles O16: with nothing on the pending list there is no action to perform. -/
theorem idleStepHoldsTheState : Obligations.IdleStepHoldsTheState := fun _ => step_of_nothing_pending

/-! ## A checksum right after reset (R252) -/

/-- R86, R107: outside a frame, `CRC.BYTES` and `CRC.FINAL` go on from whatever CRC holds. -/
theorem issue_crcBytes_crcFinal (bs : List Byte) {s : State} (herr : s.err = false) (hidle : s.fph = .idle) :
    issue (crcBytes bs ++ [.crcFinal]) s =
      .next ((s.setCrc (crcFold s.crc bs)).setRes (crcComplement (crcFold s.crc bs))) := by
  have hfinal : exec .crcFinal (s.setCrc (crcFold s.crc bs)) = _ := exec_crcFinal_idle hidle
  rw [issue_append _ (issue_crcBytes bs herr hidle), issue_cons _ hfinal herr, issue_nil]
  rfl

/-- Settles O32: reset leaves CRC at the initial value, which is all that `CRC.INIT` would write. -/
theorem checksumRightAfterReset : Obligations.ChecksumRightAfterReset := by
  intro bs s
  have hreset : perform .reset s = .next (resetBlock s) := rfl
  have hcrc : crc32 bs ^^^ 0xFFFFFFFF = crcFold crcInitial bs := crcComplement_crcComplement _
  rw [performAll_cons _ hreset, ← issue, issue_crcBytes_crcFinal bs (s := resetBlock s) rfl rfl, hcrc]
  rfl

/-! ## What a job and a frame keep (R257) -/

/-- R257: a command that is accepted during a job writes neither W nor H. -/
theorem commandWrites_dimensions_of_job {i : Instr} {s : State} (hactive : s.sph = .active)
    (hpass : firstFailing (commandChecks i s) = none) :
    (commandWrites i s).w = s.w ∧ (commandWrites i s).h = s.h := by
  rw [firstFailing_eq_none] at hpass
  cases i with
  | slWh | slWl | slHh | slHl | slStart => simp [commandChecks, jobActive, hactive] at hpass
  | _ => simp [commandWrites]

theorem exec_dimensions_of_job {i : Instr} {s t : State} (hactive : s.sph = .active) (h : exec i s = .next t) :
    t.w = s.w ∧ t.h = s.h := by
  rcases exec_cases h with ⟨c, -, rfl⟩ | ⟨hpass, rfl⟩
  · exact ⟨rfl, rfl⟩
  · exact commandWrites_dimensions_of_job hactive hpass

theorem acceptCommand_dimensions_of_job {word : Word} {s t : State} (hactive : s.sph = .active)
    (h : acceptCommand word s = .next t) : t.w = s.w ∧ t.h = s.h := by
  rcases acceptCommand_cases h with ⟨-, rfl⟩ | ⟨i, -, -, hexec⟩ | ⟨e, -, -, rfl⟩
  · exact ⟨rfl, rfl⟩
  · exact exec_dimensions_of_job hactive hexec
  · exact ⟨rfl, rfl⟩

/-- R124: with room for the character, an ASCII byte is accepted in either phase. -/
theorem exec_frTypeb_of_room {b : Byte} {s : State} (hroom : s.tcnt ≠ 4) (hchar : b.toNat ≤ 0x7F) :
    exec (.frTypeb b) s = .next ((s.setType (shiftInByte s.type b)).setTcnt (s.tcnt + 1)) := by
  rw [exec_frTypeb, if_neg hroom, if_neg (Nat.not_lt.2 hchar)]

/-- Settles O25: a word accepted during a job writes no dimension, and the three loads write LEN, TYPE and TCNT
alone. -/
theorem dimensionsFrozenDuringAJob : Obligations.DimensionsFrozenDuringAJob := by
  refine ⟨fun w s t => acceptCommand_dimensions_of_job, fun imm b s hopen hcount hchar i hi => ?_⟩
  have hroom : s.tcnt ≠ 4 := by
    intro heq
    simp [heq] at hcount
  simp only [List.mem_cons, List.not_mem_nil, or_false] at hi
  obtain rfl | rfl | rfl := hi
  · exact ⟨_, exec_frLenh imm s, rfl, rfl, rfl, rfl, hopen⟩
  · exact ⟨_, exec_frLenl imm s, rfl, rfl, rfl, rfl, hopen⟩
  · exact ⟨_, exec_frTypeb_of_room hroom hchar, rfl, rfl, rfl, rfl, hopen⟩

end Sys2Proof.Machine
end
